-- ==== Sys2Proof/Word.lean ====
section
/-! DEFINITION. The words of the JS-30: a byte of the configuration memory or of a payload, and the
16-bit quantities (time stamps, record indices, counts of pulses, the check field). -/

namespace Sys2Proof

/-- One byte (payload bytes of R175, configuration block bytes of R179). -/
abbrev Byte := BitVec 8

/-- A 16-bit quantity that wraps (time stamps, counts, record indices, the check field). -/
abbrev Word16 := BitVec 16

end Sys2Proof
end

