-- ==== Sys2Proof/Syntax.lean ====
section
/-! DEFINITION. What travels on the relay link (frames, items, image parts, requests; chapter 2) and the
commands of the station: one constructor of `Instr` per row of spec/opcode_table.json. -/

namespace Sys2Proof

/-- A station number; the link's stations are 1 to 30 (R27, R29). -/
abbrev Station := Nat

/-- A shared point number; the points are 0 to 255 (R1). -/
abbrev Point := Nat

/-- One entry of an all-class point's contributor map (R5). -/
inductive Entry where
  | off
  | on
  | lostOff
  deriving DecidableEq, Repr

/-- The state of a station as held in a roster (R78). -/
inductive RosterState where
  | absent
  | joining
  | active
  | lost
  deriving DecidableEq, Repr

/-- The ON-set of an any-class point: stations in ascending order without repeats (R4). -/
abbrev OnSet := List Station

/-- The contributor map of an all-class point: one entry per station, ascending stations (R5). -/
abbrev ContributorMap := List (Station × Entry)

/-- The record of a held-class point (R6). -/
structure HeldRecord where
  value   : Bool
  changer : Option Station
  changes : Byte
  deriving DecidableEq, Repr

/-- The replicated record of a count-class point (R7); the pulse flag is local and not part of it. -/
structure CountRecord where
  count  : Word16
  pulser : Option Station
  deriving DecidableEq, Repr

/-- One change carried by an UPDATE or ENTRY frame (R31). -/
inductive Item where
  | level (point : Point) (on : Bool)
  | set (point : Point)
  | clear (point : Point)
  | pulse (point : Point) (n : Nat)
  deriving DecidableEq, Repr

/-- The body of an IMAGE frame (R33 to R35): the roster, or eight records of one class. -/
inductive PartBody where
  | roster (entries : List (RosterState × Nat))
  | any (sets : List OnSet)
  | all (maps : List ContributorMap)
  | held (records : List HeldRecord)
  | count (records : List CountRecord)
  deriving DecidableEq, Repr

/-- A service request with its arguments (R36). -/
inductive Request where
  | readPoint (point : Byte)
  | readRoster
  | readLocal
  | readFault
  | clearFault (counts : Bool)
  | readCapture (first : Word16) (count : Nat)
  | armCapture
  | releaseStation (station : Station)
  | restart
  deriving DecidableEq, Repr

/-- The status of a response part (R37). -/
inductive Status where
  | done
  | busy
  | refused
  | gone
  deriving DecidableEq, Repr

/-- A frame of the relay link, one constructor per kind in the order of rank (R28). -/
inductive Frame where
  | loss (sender target : Station)
  | release (sender target : Station)
  | join (sender : Station) (respondent : Station) (period : Nat)
  | busy (sender target : Station)
  | image (sender target : Station) (part : Nat) (body : PartBody)
  | entry (sender : Station) (period : Nat) (items : List Item)
  | update (sender : Station) (items : List Item)
  | rollcall (sender : Station) (period : Nat)
  | svcReq (sender target : Station) (tag : Byte) (request : Request)
  | svcRsp (sender target : Station) (tag : Byte) (status : Status) (part parts : Nat) (payload : List Byte)
  deriving DecidableEq, Repr

/-- A cell of a frame as a receiver reads it: a data bit, or broken (R44, R45). -/
inductive Cell where
  | bit (b : Bool)
  | broken
  deriving DecidableEq, Repr

/-- A dominant pulse on the medium, in nanoseconds: its edge, measured from the station's time reference, the opening
edge of the cell it received last (R44), and how long the level stays dominant. -/
structure Pulse where
  edge   : Nat
  length : Nat
  deriving DecidableEq, Repr

/-- The dominant level of one cell: its first pulse, and any that follow it before the next cell is due. -/
structure Waveform where
  first  : Pulse
  others : List Pulse
  deriving DecidableEq, Repr

/-- What a station sees on the medium outside the end of a frame (R46, R47, R55): a start cell opened by
another station, the level of the next cell of the frame in reception, or any other dominant level. -/
inductive Activity where
  | startCell
  | cell (w : Waveform)
  | level
  deriving DecidableEq, Repr

/-- The commands of the station: one constructor per row of spec/opcode_table.json, in the table's order. -/
inductive Instr where
  | powerOnReset
  | resetLineAssertion
  /-- `straps`: the levels of STN0 to STN4 (bit 0 to bit 4) when the line is released. -/
  | resetRelease (straps : BitVec 5)
  /-- `answer`: the bytes of the transfer the loader has asked for, or none where it did not complete. -/
  | configurationRead (answer : Option (List Byte))
  | idleReached
  | frameStart
  | arbitrationLost
  | abort
  | frameIncomplete
  /-- `cells`: the levels of the cells of the vetoed frame that this station saw since its frame in reception was last
  extended, each measured from the opening edge before it. -/
  | veto (cells : List Waveform)
  | loss (sender target : Station)
  | release (sender target : Station)
  | join (sender : Station) (respondent : Station) (period : Nat)
  | busy (sender target : Station)
  | image (sender target : Station) (part : Nat) (body : PartBody)
  | entry (sender : Station) (period : Nat) (items : List Item)
  | update (sender : Station) (items : List Item)
  | rollcall (sender : Station) (period : Nat)
  | svcRsp (sender target : Station) (tag : Byte) (status : Status) (part parts : Nat) (payload : List Byte)
  | readPoint (sender target : Station) (tag : Byte) (point : Byte)
  | readRoster (sender target : Station) (tag : Byte)
  | readLocal (sender target : Station) (tag : Byte)
  | readFault (sender target : Station) (tag : Byte)
  | clearFault (sender target : Station) (tag : Byte) (counts : Bool)
  | readCapture (sender target : Station) (tag : Byte) (first : Word16) (count : Nat)
  | armCapture (sender target : Station) (tag : Byte)
  | releaseStation (sender target : Station) (tag : Byte) (station : Station)
  | restart (sender target : Station) (tag : Byte)
  | listenPeriodExpiry
  | answerTimerExpiry
  | partGapExpiry
  | rejoinHoldoffExpiry
  | straySetExpiry (station : Station)
  | silenceLimit (station : Station)
  | entryDeadline (station : Station)
  | rollcallDue
  | pacingGap
  | pulseWindowExpiry (point : Point)
  | unitExpiry (timer : Fin 16)
  | inputLineChange (input : Fin 16) (level : Bool)
  | filterRunExpiry (input : Fin 16)
  | readbackLineChange (output : Fin 12) (level : Bool)
  | settleTimerExpiry (output : Fin 12)
  | mismatchTimerExpiry (output : Fin 12)
  | activity (a : Activity)
  deriving DecidableEq, Repr

end Sys2Proof
end

