-- ==== Sys2Proof/Config.lean ====
section
/-! DEFINITION. What the manual fixes once for every JS-30 (limits in milliseconds, cells and counts) and
the free values: constants without a body, of which nothing can be proved. -/

namespace Sys2Proof.Config

/-- Free value: at the k-th choice among events of which "either may be taken first" (R131 and the rules
it gathers), the number that decides. Log 3. -/
opaque choice : Nat → Nat

/-- Free value: sixteen bits for a part of a response payload to which R175 gives no content; the first
argument is the counter `freeIndex`, the second the place in the payload. Log 6. -/
opaque unstated : Nat → Nat → Word16

/-- Free value: the levels of the strap pins STN0 to STN4 (bit 0 to bit 4) as a RESTART finds them; the argument is
the counter `freeIndex`. The manual gives no command that sets the pins while the station runs (R177, R183). Log 9. -/
opaque strapLevels : Nat → BitVec 5

/-- Idle is reached at ten recessive cell times (R46). -/
def idleCells : Nat := 10

/-- The pulse window of a count-class point, in milliseconds (R7, R12). -/
def pulseWindow : Nat := 10

/-- The listen period in own periods (R96). -/
def listenPeriods : Nat := 4

/-- The answer timer and the part gap in own periods (R103). -/
def answerPeriods : Nat := 2

/-- The silence limit in declared periods (R85). -/
def silencePeriods : Nat := 3

/-- The entry deadline in declared periods (R86). -/
def deadlinePeriods : Nat := 80

/-- A stray member leaves after this many own periods (R111). -/
def strayPeriods : Nat := 3

/-- The rejoin holdoff in own periods, to which the station number is added (R114). -/
def holdoffPeriods : Nat := 2

/-- The capacity of the backlog (R105). -/
def backlogCapacity : Nat := 64

/-- The capacity of the capture ring (R161). -/
def ringCapacity : Nat := 48

/-- The most items of one UPDATE or ENTRY (R32). -/
def maxItems : Nat := 12

/-- The most pulses of one point pending and in flight together (R69). -/
def maxPulses : Nat := 255

/-- The parts of an image transfer (R33). -/
def imageParts : Nat := 33

/-- Passes of one evaluator event: 32 markers in at most 33 rounds, by which every cascade without a
cycle has ended (R122, R130). -/
def cascadeFuel : Nat := 1056

/-- How many consequent hand-offs one command takes before the rest wait for the next (log 4). -/
def echoFuel : Nat := 4096

end Sys2Proof.Config
end

