-- ==== Sys2Proof/Machine/FrameCheck.lean ====
section
/-! DEFINITION. The fields of a frame and the judgement of a frame's fields: which frames are malformed and
why (R26 to R37, gathered in R40). The judgement depends on the frame alone. -/

namespace Sys2Proof.Machine

/-- The classes of points, fixed by the number (R1). -/
inductive PointClass where
  | any
  | all
  | held
  | count
  deriving DecidableEq, Repr

/-- R1: the class of a point; numbers above 255 are no points. -/
def pointClass? (p : Point) : Option PointClass :=
  if p < 128 then some .any
  else if p < 176 then some .all
  else if p < 224 then some .held
  else if p < 256 then some .count
  else none

/-- Why a receiver finds a frame malformed: the rows of R40. -/
inductive Malformed where
  | brokenCell
  | slotMisplaced
  | unknownKind
  | badSender
  | badStation
  | selfAddressed
  | badPeriod
  | badItemCount
  | entryItem
  | itemClass
  | pulseZero
  | badPart
  | rosterEntry
  | allRecord
  | changerOrPulser
  | badRequest
  | badResponse
  | badCheckField
  deriving DecidableEq, Repr

/-- The kind rank of a frame (R28). -/
def frameRank : Frame → Nat
  | .loss .. => 0
  | .release .. => 1
  | .join .. => 2
  | .busy .. => 3
  | .image .. => 4
  | .entry .. => 5
  | .update .. => 6
  | .rollcall .. => 7
  | .svcReq .. => 8
  | .svcRsp .. => 9

/-- The sender field of a frame (R27). -/
def frameSender : Frame → Station
  | .loss s _ => s
  | .release s _ => s
  | .join s _ _ => s
  | .busy s _ => s
  | .image s _ _ _ => s
  | .entry s _ _ => s
  | .update s _ => s
  | .rollcall s _ => s
  | .svcReq s _ _ _ => s
  | .svcRsp s _ _ _ _ _ _ => s

/-- The frame key over which arbitration runs (R27). -/
def frameKey (f : Frame) : Nat := 32 * frameRank f + frameSender f

/-- Whether the frame is a JOIN, the one kind accepted from every sender (R41). -/
def isJoin : Frame → Bool
  | .join .. => true
  | _ => false

/-- R105: the kinds a joiner keeps in its backlog. -/
def isBacklogKind : Frame → Bool
  | .join .. | .entry .. | .loss .. | .release .. | .update .. => true
  | _ => false

/-- A station number, 1 to 30 (R27, R29). -/
def isStation (s : Station) : Bool := 1 ≤ s && s ≤ 30

/-- A link period in range (R30). -/
def isPeriod (p : Nat) : Bool := 10 ≤ p && p ≤ 250

/-- R29: a target names one station, not the sender. -/
def checkTarget (sender target : Station) : Option Malformed :=
  if !isStation target then some .badStation
  else if target = sender then some .selfAddressed
  else none

/-- R29: a respondent is ANY (0) or one station, not the sender. -/
def checkRespondent (sender respondent : Station) : Option Malformed :=
  if respondent = 0 then none else checkTarget sender respondent

/-- R30: the declared P. -/
def checkPeriod (p : Nat) : Option Malformed :=
  if isPeriod p then none else some .badPeriod

/-- R31: the item kind agrees with its point's class, and a PULSE count is 1 to 255. -/
def checkItem : Item → Option Malformed
  | .level p _ =>
    match pointClass? p with
    | some .any | some .all => none
    | _ => some .itemClass
  | .set p => if pointClass? p = some .held then none else some .itemClass
  | .clear p => if pointClass? p = some .held then none else some .itemClass
  | .pulse p n =>
    if pointClass? p ≠ some .count then some .itemClass
    else if n = 0 || 256 ≤ n then some .pulseZero
    else none

/-- R32: an ENTRY holds LEVEL items only. -/
def isLevel : Item → Bool
  | .level .. => true
  | _ => false

/-- R34: one entry of the roster part. -/
def rosterEntryOk : RosterState × Nat → Bool
  | (.absent, p) => p = 0
  | (_, p) => isPeriod p

/-- Strictly ascending station numbers, all above `low`, each 1 to 30 (R4, R35). -/
def ascendingFrom (low : Nat) : List Station → Bool
  | [] => true
  | s :: rest => low < s && isStation s && ascendingFrom s rest

/-- R35: a held record whose changer is absent is OFF with change count 0. -/
def heldRecordOk (r : HeldRecord) : Bool :=
  match r.changer with
  | none => !r.value && r.changes = 0
  | some s => isStation s

/-- R35: a count record whose pulser is absent has count 0. -/
def countRecordOk (r : CountRecord) : Bool :=
  match r.pulser with
  | none => r.count = 0
  | some s => isStation s

/-- R33: the shape of the body that a part number fixes. -/
inductive PartShape where
  | roster
  | any
  | all
  | held
  | count
  deriving DecidableEq, Repr

/-- R33: the part table; part numbers above 32 are malformed. -/
def partShape? (k : Nat) : Option PartShape :=
  if k = 0 then some .roster
  else if k ≤ 16 then some .any
  else if k ≤ 22 then some .all
  else if k ≤ 28 then some .held
  else if k ≤ 32 then some .count
  else none

/-- R33 to R35: the body agrees with the part number and each record is allowed. -/
def checkPart (k : Nat) (body : PartBody) : Option Malformed :=
  match partShape? k, body with
  | some .roster, .roster es =>
    if es.length ≠ 30 then some .badPart else if es.all rosterEntryOk then none else some .rosterEntry
  | some .any, .any sets =>
    if sets.length ≠ 8 then some .badPart else if sets.all (ascendingFrom 0) then none else some .badPart
  | some .all, .all maps =>
    if maps.length ≠ 8 then some .badPart
    else if maps.all (fun m => ascendingFrom 0 (m.map Prod.fst)) then none else some .allRecord
  | some .held, .held rs =>
    if rs.length ≠ 8 then some .badPart else if rs.all heldRecordOk then none else some .changerOrPulser
  | some .count, .count rs =>
    if rs.length ≠ 8 then some .badPart else if rs.all countRecordOk then none else some .changerOrPulser
  | _, _ => some .badPart

/-- R36: the arguments of a request. -/
def checkRequest : Request → Option Malformed
  | .readCapture _ count => if 1 ≤ count && count ≤ 48 then none else some .badRequest
  | .releaseStation s => if isStation s then none else some .badRequest
  | _ => none

/-- R37: part numbers and payload length of a response. -/
def checkResponse (part parts : Nat) (payload : List Byte) : Option Malformed :=
  if parts = 0 || 63 < parts || part = 0 || parts < part || 32 < payload.length then some .badResponse else none

/-- The first reason found among the checks of a frame's fields, in the order the fields are sent. -/
def firstReason (checks : List (Option Malformed)) : Option Malformed :=
  checks.findSome? id

/-- R40, the rows that the frame's fields decide: the reason a frame is malformed, or none. -/
def frameFault? (f : Frame) : Option Malformed :=
  firstReason <|
    (if isStation (frameSender f) then none else some .badSender) ::
    match f with
    | .loss s t => [checkTarget s t]
    | .release s t => [checkTarget s t]
    | .join s r p => [checkRespondent s r, checkPeriod p]
    | .busy s t => [checkTarget s t]
    | .image s t k body => [checkTarget s t, checkPart k body]
    | .entry _ p items =>
      [checkPeriod p, (if items.length ≤ Config.maxItems then none else some .badItemCount),
        (if items.all isLevel then none else some .entryItem), items.findSome? checkItem]
    | .update _ items =>
      [(if 1 ≤ items.length && items.length ≤ Config.maxItems then none else some .badItemCount),
        items.findSome? checkItem]
    | .rollcall _ p => [checkPeriod p]
    | .svcReq s t _ r => [checkTarget s t, checkRequest r]
    | .svcRsp s t _ _ k n payload => [checkTarget s t, checkResponse k n payload]

/-- A frame no healthy receiver vetoes for its fields (R40). -/
def frameOk (f : Frame) : Bool := (frameFault? f).isNone

end Sys2Proof.Machine
end

