-- ==== Sys2Proof/WellFormed.lean ====
section
/-! DEFINITION. Which commands are well-formed: a frame that arrives has fields the layout of R39 can carry and
no receiver vetoes (R40), a command about a station or point names one that exists, and the pulses of a cell stand in
their order. -/

namespace Sys2Proof

open Sys2Proof.Machine

/-- The frame that a command of the link delivers at its check slot, if it delivers one. -/
def Instr.frame? : Instr → Option Frame
  | .loss s t => some (.loss s t)
  | .release s t => some (.release s t)
  | .join s r p => some (.join s r p)
  | .busy s t => some (.busy s t)
  | .image s t k body => some (.image s t k body)
  | .entry s p items => some (.entry s p items)
  | .update s items => some (.update s items)
  | .rollcall s p => some (.rollcall s p)
  | .svcRsp s t tag status k n payload => some (.svcRsp s t tag status k n payload)
  | .readPoint s t tag p => some (.svcReq s t tag (.readPoint p))
  | .readRoster s t tag => some (.svcReq s t tag .readRoster)
  | .readLocal s t tag => some (.svcReq s t tag .readLocal)
  | .readFault s t tag => some (.svcReq s t tag .readFault)
  | .clearFault s t tag counts => some (.svcReq s t tag (.clearFault counts))
  | .readCapture s t tag first count => some (.svcReq s t tag (.readCapture first count))
  | .armCapture s t tag => some (.svcReq s t tag .armCapture)
  | .releaseStation s t tag station => some (.svcReq s t tag (.releaseStation station))
  | .restart s t tag => some (.svcReq s t tag .restart)
  | .powerOnReset | .resetLineAssertion | .resetRelease _ | .configurationRead _ | .idleReached
  | .frameStart | .arbitrationLost | .abort | .frameIncomplete | .veto _
  | .listenPeriodExpiry | .answerTimerExpiry | .partGapExpiry | .rejoinHoldoffExpiry
  | .straySetExpiry _ | .silenceLimit _ | .entryDeadline _ | .rollcallDue | .pacingGap
  | .pulseWindowExpiry _ | .unitExpiry _ | .inputLineChange _ _ | .filterRunExpiry _
  | .readbackLineChange _ _ | .settleTimerExpiry _ | .mismatchTimerExpiry _ | .activity _ => none

/-- Pulses in their order: each dominant for a time, with the medium recessive between one and the next. -/
def pulsesInOrder : List Pulse → Bool
  | [] => true
  | [p] => 0 < p.length
  | p :: q :: rest => 0 < p.length && p.edge + p.length < q.edge && pulsesInOrder (q :: rest)

/-- The level of a cell that a medium can show. -/
def Waveform.wellFormed (w : Waveform) : Bool := pulsesInOrder (w.first :: w.others)

/-- A command that is well-formed. A frame that is not would be vetoed by every healthy receiver, this
station among them (R40); a timer of a station or point that does not exist does not run. -/
def Instr.wellFormed (c : Instr) : Bool :=
  match c.frame? with
  | some f => frameOk f
  | none =>
    match c with
    | .straySetExpiry s | .silenceLimit s | .entryDeadline s => isStation s
    | .activity (.cell w) => w.wellFormed
    | .veto cells => cells.all Waveform.wellFormed
    | .pulseWindowExpiry p => decide (pointClass? p = some .count)
    | _ => true

end Sys2Proof
end

