-- ==== Sys2Proof/Machine/FrameBits.lean ====
section
/-! DEFINITION. Frames as bits: the layout tables of R39, the check field of R38, the encoder a sender uses
and the decoder of a complete frame, which judges it by R40. -/

namespace Sys2Proof.Machine

/-- The `w` bits of a field, most significant bit first (R26, R39). -/
def fieldBits : Nat → Nat → List Bool
  | 0, _ => []
  | w + 1, n => n.testBit w :: fieldBits w n

/-- The number that bits spell, most significant bit first. -/
def bitsValue (bits : List Bool) : Nat :=
  bits.foldl (fun acc b => 2 * acc + b.toNat) 0

/-- R38: one step of the check register. -/
def checkStep (r : Word16) (b : Bool) : Word16 :=
  let feedback := b != r.msb
  let shifted := r <<< 1
  if feedback then shifted ^^^ 0x1021#16 else shifted

/-- R38: the check register over covered bits; all stages start at one. -/
def checkRegister (bits : List Bool) : Word16 :=
  bits.foldl checkStep 0xFFFF#16

/-- The check field as sent, stage 15 first, without inversion (R38). -/
def checkBits (bits : List Bool) : List Bool :=
  fieldBits 16 (checkRegister bits).toNat

/-- The membership field of an any-class record, station 1 first (R35). -/
def membershipBits (set : OnSet) : List Bool :=
  (List.range 30).map (fun i => set.contains (i + 1))

def entryCode : Entry → Nat
  | .off => 0
  | .on => 1
  | .lostOff => 2

def rosterCode : RosterState → Nat
  | .absent => 0
  | .joining => 1
  | .active => 2
  | .lost => 3

def statusCode : Status → Nat
  | .done => 0
  | .busy => 1
  | .refused => 2
  | .gone => 3

/-- R39, items table. -/
def itemBits : Item → List Bool
  | .level p on => fieldBits 2 0 ++ fieldBits 8 p ++ [on]
  | .set p => fieldBits 2 1 ++ fieldBits 8 p
  | .clear p => fieldBits 2 2 ++ fieldBits 8 p
  | .pulse p n => fieldBits 2 3 ++ fieldBits 8 p ++ fieldBits 8 n

def rosterEntryBits (e : RosterState × Nat) : List Bool :=
  fieldBits 2 (rosterCode e.1) ++ fieldBits 8 e.2

def mapEntryBits (e : Station × Entry) : List Bool :=
  fieldBits 5 e.1 ++ fieldBits 2 (entryCode e.2)

def mapBits (m : ContributorMap) : List Bool :=
  fieldBits 5 m.length ++ m.flatMap mapEntryBits

def heldBits (r : HeldRecord) : List Bool :=
  [r.value] ++ fieldBits 5 (r.changer.getD 0) ++ fieldBits 8 r.changes.toNat

def countBits (r : CountRecord) : List Bool :=
  fieldBits 16 r.count.toNat ++ fieldBits 5 (r.pulser.getD 0)

/-- R39, image part records. -/
def partBits : PartBody → List Bool
  | .roster es => es.flatMap rosterEntryBits
  | .any sets => sets.flatMap membershipBits
  | .all maps => maps.flatMap mapBits
  | .held rs => rs.flatMap heldBits
  | .count rs => rs.flatMap countBits

def requestCode : Request → Nat
  | .readPoint _ => 0
  | .readRoster => 1
  | .readLocal => 2
  | .readFault => 3
  | .clearFault _ => 4
  | .readCapture _ _ => 5
  | .armCapture => 6
  | .releaseStation _ => 7
  | .restart => 8

/-- R39, request arguments. -/
def argumentBits : Request → List Bool
  | .readPoint p => fieldBits 8 p.toNat
  | .clearFault counts => [counts]
  | .readCapture first count => fieldBits 16 first.toNat ++ fieldBits 6 count
  | .releaseStation s => fieldBits 5 s
  | _ => []

/-- The body of a frame, fields in the order of R28. -/
def bodyBits : Frame → List Bool
  | .loss _ t => fieldBits 5 t
  | .release _ t => fieldBits 5 t
  | .join _ r p => fieldBits 5 r ++ fieldBits 8 p
  | .busy _ t => fieldBits 5 t
  | .image _ t k body => fieldBits 5 t ++ fieldBits 6 k ++ partBits body
  | .entry _ p items => fieldBits 8 p ++ fieldBits 4 items.length ++ items.flatMap itemBits
  | .update _ items => fieldBits 4 items.length ++ items.flatMap itemBits
  | .rollcall _ p => fieldBits 8 p
  | .svcReq _ t tag r => fieldBits 5 t ++ fieldBits 8 tag.toNat ++ fieldBits 4 (requestCode r) ++ argumentBits r
  | .svcRsp _ t tag status k n payload =>
    fieldBits 5 t ++ fieldBits 8 tag.toNat ++ fieldBits 2 (statusCode status) ++ fieldBits 6 k ++ fieldBits 6 n
      ++ fieldBits 6 payload.length ++ payload.flatMap (fun b => fieldBits 8 b.toNat)

/-- The bits the check field covers: key and body (R38). -/
def coveredBits (f : Frame) : List Bool :=
  fieldBits 4 (frameRank f) ++ fieldBits 5 (frameSender f) ++ bodyBits f

/-- A frame as its sender sends it between the start cell and the check slot: key, body and check field. -/
def encodeFrame (f : Frame) : List Bool :=
  coveredBits f ++ checkBits (coveredBits f)

/-- Take a field of `w` bits; a frame that ends before the field does has its slot misplaced (R48). -/
def takeField (w : Nat) (bits : List Bool) : Except Malformed (Nat × List Bool) :=
  if w ≤ bits.length then .ok (bitsValue (bits.take w), bits.drop w) else .error .slotMisplaced

/-- Take `n` records one after another. -/
def takeMany {α : Type} (one : List Bool → Except Malformed (α × List Bool)) :
    Nat → List Bool → Except Malformed (List α × List Bool)
  | 0, bits => .ok ([], bits)
  | n + 1, bits => do
    let (x, bits) ← one bits
    let (xs, bits) ← takeMany one n bits
    .ok (x :: xs, bits)

/-- One item by its kind code (R39). -/
def takeItem (bits : List Bool) : Except Malformed (Item × List Bool) := do
  let (kind, bits) ← takeField 2 bits
  let (p, bits) ← takeField 8 bits
  if kind = 0 then
    let (v, bits) ← takeField 1 bits
    .ok (.level p (v = 1), bits)
  else if kind = 1 then .ok (.set p, bits)
  else if kind = 2 then .ok (.clear p, bits)
  else
    let (n, bits) ← takeField 8 bits
    .ok (.pulse p n, bits)

def rosterOfCode (c : Nat) : RosterState :=
  if c = 0 then .absent else if c = 1 then .joining else if c = 2 then .active else .lost

def takeRosterEntry (bits : List Bool) : Except Malformed ((RosterState × Nat) × List Bool) := do
  let (c, bits) ← takeField 2 bits
  let (p, bits) ← takeField 8 bits
  .ok ((rosterOfCode c, p), bits)

def takeMembership (bits : List Bool) : Except Malformed (OnSet × List Bool) :=
  if 30 ≤ bits.length then
    .ok ((List.range 30).filterMap (fun i => if bits.getD i false then some (i + 1) else none), bits.drop 30)
  else .error .slotMisplaced

def takeMapEntry (bits : List Bool) : Except Malformed ((Station × Entry) × List Bool) := do
  let (s, bits) ← takeField 5 bits
  let (c, bits) ← takeField 2 bits
  if c = 0 then .ok ((s, .off), bits)
  else if c = 1 then .ok ((s, .on), bits)
  else if c = 2 then .ok ((s, .lostOff), bits)
  else .error .allRecord

def takeMap (bits : List Bool) : Except Malformed (ContributorMap × List Bool) := do
  let (n, bits) ← takeField 5 bits
  takeMany takeMapEntry n bits

/-- A station field in which 0 means absent (R29). -/
def optionalStation (n : Nat) : Option Station := if n = 0 then none else some n

def takeHeld (bits : List Bool) : Except Malformed (HeldRecord × List Bool) := do
  let (v, bits) ← takeField 1 bits
  let (s, bits) ← takeField 5 bits
  let (c, bits) ← takeField 8 bits
  .ok (⟨v = 1, optionalStation s, BitVec.ofNat 8 c⟩, bits)

def takeCount (bits : List Bool) : Except Malformed (CountRecord × List Bool) := do
  let (c, bits) ← takeField 16 bits
  let (s, bits) ← takeField 5 bits
  .ok (⟨BitVec.ofNat 16 c, optionalStation s⟩, bits)

/-- The part body that the part number fixes (R33). -/
def takePart (k : Nat) (bits : List Bool) : Except Malformed (PartBody × List Bool) :=
  match partShape? k with
  | some .roster => do
    let (es, bits) ← takeMany takeRosterEntry 30 bits
    .ok (.roster es, bits)
  | some .any => do
    let (xs, bits) ← takeMany takeMembership 8 bits
    .ok (.any xs, bits)
  | some .all => do
    let (xs, bits) ← takeMany takeMap 8 bits
    .ok (.all xs, bits)
  | some .held => do
    let (xs, bits) ← takeMany takeHeld 8 bits
    .ok (.held xs, bits)
  | some .count => do
    let (xs, bits) ← takeMany takeCount 8 bits
    .ok (.count xs, bits)
  | none => .error .badPart

/-- The request of a request kind code (R36). -/
def takeRequest (bits : List Bool) : Except Malformed (Request × List Bool) := do
  let (code, bits) ← takeField 4 bits
  match code with
  | 0 =>
    let (p, bits) ← takeField 8 bits
    .ok (.readPoint (BitVec.ofNat 8 p), bits)
  | 1 => .ok (.readRoster, bits)
  | 2 => .ok (.readLocal, bits)
  | 3 => .ok (.readFault, bits)
  | 4 =>
    let (c, bits) ← takeField 1 bits
    .ok (.clearFault (c = 1), bits)
  | 5 =>
    let (first, bits) ← takeField 16 bits
    let (count, bits) ← takeField 6 bits
    .ok (.readCapture (BitVec.ofNat 16 first) count, bits)
  | 6 => .ok (.armCapture, bits)
  | 7 =>
    let (s, bits) ← takeField 5 bits
    .ok (.releaseStation s, bits)
  | 8 => .ok (.restart, bits)
  | _ => .error .badRequest

def statusOfCode (c : Nat) : Status :=
  if c = 0 then .done else if c = 1 then .busy else if c = 2 then .refused else .gone

def takeByte (bits : List Bool) : Except Malformed (Byte × List Bool) := do
  let (b, bits) ← takeField 8 bits
  .ok (BitVec.ofNat 8 b, bits)

/-- The body of a frame of the given rank and sender (R26, R28); ranks 10 to 15 are unknown kinds. -/
def takeBody (rank : Nat) (s : Station) (bits : List Bool) : Except Malformed (Frame × List Bool) :=
  match rank with
  | 0 => do
    let (t, bits) ← takeField 5 bits
    .ok (.loss s t, bits)
  | 1 => do
    let (t, bits) ← takeField 5 bits
    .ok (.release s t, bits)
  | 2 => do
    let (r, bits) ← takeField 5 bits
    let (p, bits) ← takeField 8 bits
    .ok (.join s r p, bits)
  | 3 => do
    let (t, bits) ← takeField 5 bits
    .ok (.busy s t, bits)
  | 4 => do
    let (t, bits) ← takeField 5 bits
    let (k, bits) ← takeField 6 bits
    let (body, bits) ← takePart k bits
    .ok (.image s t k body, bits)
  | 5 => do
    let (p, bits) ← takeField 8 bits
    let (n, bits) ← takeField 4 bits
    let (items, bits) ← takeMany takeItem n bits
    .ok (.entry s p items, bits)
  | 6 => do
    let (n, bits) ← takeField 4 bits
    let (items, bits) ← takeMany takeItem n bits
    .ok (.update s items, bits)
  | 7 => do
    let (p, bits) ← takeField 8 bits
    .ok (.rollcall s p, bits)
  | 8 => do
    let (t, bits) ← takeField 5 bits
    let (tag, bits) ← takeByte bits
    let (r, bits) ← takeRequest bits
    .ok (.svcReq s t tag r, bits)
  | 9 => do
    let (t, bits) ← takeField 5 bits
    let (tag, bits) ← takeByte bits
    let (status, bits) ← takeField 2 bits
    let (k, bits) ← takeField 6 bits
    let (n, bits) ← takeField 6 bits
    let (len, bits) ← takeField 6 bits
    let (payload, bits) ← takeMany takeByte len bits
    .ok (.svcRsp s t tag (statusOfCode status) k n payload, bits)
  | _ => .error .unknownKind

/-- Key and body, with the bits that follow them. -/
def takeFrame (bits : List Bool) : Except Malformed (Frame × List Bool) := do
  let (rank, bits) ← takeField 4 bits
  let (s, bits) ← takeField 5 bits
  takeBody rank s bits

/-- R40: the verdict on the bits received between the start cell and the marked check slot. The fields must
have their ranges, exactly sixteen bits must follow the body (R48), and they must be the check field. -/
def decodeFrame (bits : List Bool) : Except Malformed Frame := do
  let (f, rest) ← takeFrame bits
  match frameFault? f with
  | some reason => .error reason
  | none =>
    if rest.length ≠ 16 then .error .slotMisplaced
    else if bitsValue rest ≠ (checkRegister (bits.take (bits.length - 16))).toNat then .error .badCheckField
    else .ok f

/-- The bits of cells none of which is broken. -/
def cellBits : List Cell → Option (List Bool)
  | [] => some []
  | .bit b :: cs => (cellBits cs).map (b :: ·)
  | .broken :: _ => none

end Sys2Proof.Machine
end

