-- ==== Sys2Proof/Machine/Reception.lean ====
section
/-! DEFINITION. The frame in reception: what a receiver has decoded from the cells taken so far, field by field in the
layout of R39, and the verdict at the check slot (R26, R40, R45, R47, R48). -/

namespace Sys2Proof.Machine

/-- A field of the layout that a receiver expects next (R39). -/
inductive Piece where
  | rank
  | sender
  | target
  | respondent
  | period
  | itemCount (entry : Bool)
  | itemKind (entry : Bool)
  | itemPoint (kind : Nat)
  | pulses
  | part
  | rosterPeriod
  | entryCount
  /-- `first`: whether this is the first entry of its record. -/
  | mapStation (first : Bool)
  | mapValue
  | changer
  | changes
  | pulser
  | requestKind
  | recordCount
  | released
  | partNumber
  | partCount
  | payloadLength
  /-- A field of which every value is allowed. -/
  | plain (width : Nat)
  deriving DecidableEq, Repr

/-- R39: the width of a field. -/
def Piece.width : Piece → Nat
  | .itemKind _ | .mapValue => 2
  | .rank | .itemCount _ | .requestKind => 4
  | .sender | .target | .respondent | .entryCount | .mapStation _ | .changer | .pulser | .released => 5
  | .part | .recordCount | .partNumber | .partCount | .payloadLength => 6
  | .period | .itemPoint _ | .pulses | .rosterPeriod | .changes => 8
  | .plain w => w

/-- A reason where a check fails. -/
def reasonUnless (ok : Bool) (reason : Malformed) : Option Malformed := if ok then none else some reason

/-- The item of a kind code, for its class check. -/
def itemOfCode (kind : Nat) (p : Point) (n : Nat) : Item :=
  if kind = 0 then .level p false else if kind = 1 then .set p else if kind = 2 then .clear p else .pulse p n

/-- R40: the reason that the value `v` of a field gives, with the values of the fields before it, latest first. -/
def Piece.reason (seen : List Nat) (v : Nat) : Piece → Option Malformed
  | .rank => reasonUnless (v ≤ 9) .unknownKind
  | .sender => reasonUnless (isStation v) .badSender
  | .target => checkTarget (seen.reverse.getD 1 0) v
  | .respondent => checkRespondent (seen.reverse.getD 1 0) v
  | .period => checkPeriod v
  | .itemCount entry => reasonUnless ((entry || 1 ≤ v) && v ≤ Config.maxItems) .badItemCount
  | .itemKind entry => reasonUnless (!entry || v = 0) .entryItem
  | .itemPoint kind => checkItem (itemOfCode kind v 1)
  | .pulses => reasonUnless (v ≠ 0) .pulseZero
  | .part => reasonUnless (partShape? v).isSome .badPart
  | .rosterPeriod => reasonUnless (rosterEntryOk (rosterOfCode (seen.getD 0 0), v)) .rosterEntry
  | .entryCount => reasonUnless (v ≤ 30) .allRecord
  | .mapStation first => reasonUnless (ascendingFrom (if first then 0 else seen.getD 1 0) [v]) .allRecord
  | .mapValue => reasonUnless (v ≤ 2) .allRecord
  | .changer => reasonUnless (heldRecordOk ⟨seen.getD 0 0 = 1, optionalStation v, 0⟩) .changerOrPulser
  | .changes =>
    reasonUnless (heldRecordOk ⟨seen.getD 1 0 = 1, optionalStation (seen.getD 0 0), BitVec.ofNat 8 v⟩) .changerOrPulser
  | .pulser => reasonUnless (countRecordOk ⟨BitVec.ofNat 16 (seen.getD 0 0), optionalStation v⟩) .changerOrPulser
  | .requestKind => reasonUnless (v ≤ 8) .badRequest
  | .recordCount => checkRequest (.readCapture 0 v)
  | .released => checkRequest (.releaseStation v)
  | .partNumber => reasonUnless (v ≠ 0) .badResponse
  | .partCount => reasonUnless (v ≠ 0 && seen.getD 0 0 ≤ v) .badResponse
  | .payloadLength => reasonUnless (v ≤ 32) .badResponse
  | .plain _ => none

/-- Whether the value of the field decides which fields follow (R26). -/
def Piece.decides : Piece → Bool
  | .rank | .itemCount _ | .itemKind _ | .part | .entryCount | .requestKind | .payloadLength => true
  | _ => false

/-- R28: the fields of the body of a kind. -/
def bodyPieces (rank : Nat) : Option (List Piece) :=
  match rank with
  | 0 | 1 | 3 => some [.target]
  | 2 => some [.respondent, .period]
  | 4 => some [.target, .part]
  | 5 => some [.period, .itemCount true]
  | 6 => some [.itemCount false]
  | 7 => some [.period]
  | 8 => some [.target, .plain 8, .requestKind]
  | 9 => some [.target, .plain 8, .plain 2, .partNumber, .partCount, .payloadLength]
  | _ => none

/-- R33 to R35: the fields of a part body, by its part number. -/
def partPieces (k : Nat) : Option (List Piece) :=
  (partShape? k).map fun
    | .roster => (List.replicate 30 [.plain 2, .rosterPeriod]).flatten
    | .any => List.replicate 8 (.plain 30)
    | .all => List.replicate 8 .entryCount
    | .held => (List.replicate 8 [.plain 1, .changer, .changes]).flatten
    | .count => (List.replicate 8 [.plain 16, .pulser]).flatten

/-- R36: the argument fields of a request kind. -/
def argumentPieces (code : Nat) : Option (List Piece) :=
  match code with
  | 0 => some [.plain 8]
  | 4 => some [.plain 1]
  | 5 => some [.plain 16, .recordCount]
  | 7 => some [.released]
  | 1 | 2 | 3 | 6 | 8 => some []
  | _ => none

/-- R31: the fields of an item after its kind. -/
def itemPieces (kind : Nat) : List Piece :=
  .itemPoint kind :: if kind = 0 then [.plain 1] else if kind = 3 then [.pulses] else []

/-- R26: the fields that the value `v` of a field brings into the frame, ahead of those already expected; none where
the value makes the length unusable. -/
def Piece.brings (v : Nat) : Piece → Option (List Piece)
  | .rank => (bodyPieces v).map (.sender :: ·)
  | .itemCount entry =>
    if (entry || 1 ≤ v) && v ≤ Config.maxItems then some (List.replicate v (.itemKind entry)) else none
  | .itemKind _ => some (itemPieces v)
  | .part => partPieces v
  | .entryCount =>
    if v ≤ 30 then some ((List.range v).flatMap fun i => [.mapStation (i = 0), .mapValue]) else none
  | .requestKind => argumentPieces v
  | .payloadLength => if v ≤ 32 then some (List.replicate v (.plain 8)) else none
  | _ => some []

/-- What a receiver has decoded from bits. -/
structure Decoding where
  /-- The values of the fields decoded so far, latest first. -/
  seen   : List Nat
  /-- The fields of key and body still to come; none where a field has made the length unusable. -/
  ahead  : Option (List Piece)
  /-- The bits that no decoded field holds. -/
  rest   : List Bool
  /-- The first reason found among the fields. -/
  reason : Option Malformed
  deriving DecidableEq, Repr

/-- Decode field after field, at most `n`, until the bits or the fields run out. -/
def decodeFields : Nat → Decoding → Decoding
  | 0, d => d
  | n + 1, d =>
    match d.ahead with
    | none | some [] => d
    | some (field :: ahead) =>
      if d.rest.length < field.width then d
      else
        let v := bitsValue (d.rest.take field.width)
        decodeFields n
          { seen := v :: d.seen
            ahead := (field.brings v).map (· ++ ahead)
            rest := d.rest.drop field.width
            reason := d.reason <|> field.reason d.seen v }

/-- The position, in cells after the start cell, at which the decoded fields place the check slot: the end of the body
and the 16 bits of the check field (R26); none while a field to come decides the length, and where one has made it
unusable. -/
def Decoding.slot (d : Decoding) (taken : Nat) : Option Nat :=
  match d.ahead with
  | some ahead =>
    if ahead.any Piece.decides then none
    else some (taken - d.rest.length + (ahead.map Piece.width).sum + 16)
  | none => none

/-- R47: the record of the frame in reception. -/
structure ReceptionRecord where
  /-- The bits before the first broken cell. -/
  bits     : List Bool
  /-- The values of the fields decoded so far, in the order sent. -/
  fields   : List Nat
  /-- The position of the check slot; none for unknown. -/
  slot     : Option Nat
  /-- The running check register, over the bits of key and body. -/
  register : Word16
  /-- The first reason found; none while well-formed so far. -/
  verdict  : Option Malformed
  deriving DecidableEq, Repr

/-- The bits of cells up to the first broken one. -/
def leadingBits : List Cell → List Bool
  | .bit b :: cs => b :: leadingBits cs
  | .broken :: _ | [] => []

/-- R38, R45, R47, R48: the record of the cells received since the start cell. A cell opened at the slot position, a
check field that differs, and a broken cell are found as they arrive. -/
def receptionRecord (cells : List Cell) : ReceptionRecord :=
  let bits := leadingBits cells
  let d := decodeFields (bits.length + 1) ⟨[], some [.rank], bits, none⟩
  let slot := d.slot bits.length
  let covered := match slot with
    | some p => bits.take (p - 16)
    | none => bits
  let atSlot := match slot with
    | some p =>
      (reasonUnless (bits.length < p || (bits.drop (p - 16)).take 16 = checkBits covered) .badCheckField)
        <|> reasonUnless (cells.length ≤ p || bits.length < p) .slotMisplaced
    | none => none
  let broken := bits.length < cells.length
  { bits := bits
    fields := d.seen.reverse
    slot := if broken then none else slot
    register := checkRegister covered
    verdict := d.reason <|> atSlot <|> reasonUnless (!broken) .brokenCell }

/-- R40, R45, R48, R52: the verdict at the marked check slot on the cells received before it: a frame is well-formed
where no cell is broken and its bits decode to the end of the check field. A malformed frame has the first reason of
its record; one that has none until its slot is marked has the slot misplaced. -/
def judgeCells (cells : List Cell) : Except Malformed Frame :=
  match cellBits cells with
  | some bits =>
    match decodeFrame bits with
    | .ok f => .ok f
    | .error reason => .error ((receptionRecord cells).verdict.getD reason)
  | none => .error ((receptionRecord cells).verdict.getD .brokenCell)

/-- R49: what a sender makes of a cell of its frame. -/
inductive SenderStanding where
  | continues
  | lost
  | aborts
  deriving DecidableEq, Repr

/-- R49, R51: the bit `sent` in cell number `n` of a frame, against the cell seen. The nine cells of the key decide
arbitration; every other difference, and a broken cell, is a mismatch. -/
def senderStanding (n : Nat) (sent : Bool) (seen : Cell) : SenderStanding :=
  if seen = .bit sent then .continues
  else if n < 9 && sent && seen = .bit false then .lost
  else .aborts

end Sys2Proof.Machine
end

