-- ==== Sys2Proof/Machine/Setup.lean ====
section
/-! DEFINITION. A loaded configuration (R179): the types of what the configuration block gives each block, and
the names of the sources, literals, targets and gates that terms use (R116 to R122). -/

namespace Sys2Proof.Machine

/-- The station lifecycle (R94, R176). -/
inductive Lifecycle where
  | start
  | configFault
  | listen
  | joining
  | active
  | detached
  | linkFault
  deriving DecidableEq, Repr

/-- The standing of the image and the roster (R2, R78); `none` is the manual's NONE. -/
inductive Standing where
  | none
  | founding
  | frozen
  | complete
  deriving DecidableEq, Repr

/-- The eight kinds of source (R116). -/
inductive Source where
  | input (n : Nat)
  | marker (n : Nat)
  | point (p : Point)
  | timer (n : Nat)
  | counter (n : Nat)
  | peer (s : Station)
  | ownActive
  | ownFault
  deriving DecidableEq, Repr

/-- A source taken plain or negated (R117). -/
structure Literal where
  negated : Bool
  source  : Source
  deriving DecidableEq, Repr

/-- The ten kinds of target, in the order of R118's table. -/
inductive Target where
  | marker (n : Nat)
  | output (n : Nat)
  | contribute (p : Point)
  | timerCoil (n : Nat)
  | timerReset (n : Nat)
  | countReset (n : Nat)
  | set (p : Point)
  | clear (p : Point)
  | pulse (p : Point)
  | count (n : Nat)
  deriving DecidableEq, Repr

/-- A term: one to four literals, one gate, one target (R117). -/
structure Term where
  literals : List Literal
  gate     : Nat
  target   : Target
  deriving DecidableEq, Repr

/-- The reopen modes of a gate (R122). -/
inductive ReopenMode where
  | quiet
  | fire
  deriving DecidableEq, Repr

/-- The states of a gate (R123). -/
inductive GateState where
  | closed
  | preview
  | opened
  deriving DecidableEq, Repr

/-- The configuration of one gate G1 to G8 (R122). -/
structure GateSetup where
  enable : Option Literal
  parent : Nat
  mode   : ReopenMode
  deriving DecidableEq, Repr

/-- The kinds of timer (R135). -/
inductive TimerKind where
  | delayOn
  | delayOnHeld
  | delayOff
  deriving DecidableEq, Repr

/-- The configuration of one timer; `base` in milliseconds (R135). -/
structure TimerSetup where
  kind   : TimerKind
  base   : Nat
  preset : Nat
  gate   : Nat
  deriving DecidableEq, Repr

/-- The configuration of one counter; no source means its COUNT terms (R141). -/
structure CounterSetup where
  preset : Nat
  gate   : Nat
  source : Option Point
  deriving DecidableEq, Repr

/-- The configuration of one output (chapter 9): settle time in milliseconds, check enable, HOLD. -/
structure OutputSetup where
  settle : Nat
  check  : Bool
  hold   : Bool
  deriving DecidableEq, Repr

/-- The configuration of capture (R162, R163). -/
structure CaptureSetup where
  trigger      : Option Literal
  faultTrigger : Bool
  autoArm      : Bool
  postCount    : Nat
  deriving DecidableEq, Repr

/-- The relay link bit rates (R44, R179). -/
inductive BitRate where
  | k125
  | k250
  | k500
  | k1000
  deriving DecidableEq, Repr

/-- A loaded configuration, in the order of R179's table. -/
structure StationSetup where
  bitRate    : BitRate
  period     : Nat
  pacingGap  : Nat
  filters    : List Nat
  outputs    : List OutputSetup
  gates      : List GateSetup
  timers     : List TimerSetup
  counters   : List CounterSetup
  capture    : CaptureSetup
  faultPoint : Option Point
  terms      : List Term
  deriving DecidableEq, Repr

/-- What the blocks see while no configuration is loaded: no terms and nothing enabled (R133, R181). -/
def StationSetup.blank : StationSetup where
  bitRate := .k125
  period := 0
  pacingGap := 0
  filters := []
  outputs := []
  gates := []
  timers := []
  counters := []
  capture := ⟨.none, false, false, 0⟩
  faultPoint := .none
  terms := []

def StationSetup.output (c : StationSetup) (n : Nat) : OutputSetup := c.outputs.getD n ⟨0, false, false⟩
def StationSetup.filter (c : StationSetup) (n : Nat) : Nat := c.filters.getD n 0
def StationSetup.timer (c : StationSetup) (n : Nat) : TimerSetup := c.timers.getD n ⟨.delayOn, 0, 0, 0⟩
def StationSetup.counter (c : StationSetup) (n : Nat) : CounterSetup := c.counters.getD n ⟨0, 0, .none⟩
/-- Gate G1 to G8 by its number; G0 has no configuration (R122). -/
def StationSetup.gate (c : StationSetup) (n : Nat) : GateSetup := c.gates.getD (n - 1) ⟨.none, 0, .quiet⟩

/-- Whether the target acts on an edge with a remembered result of its own (R118, R120). -/
def Target.isRequest : Target → Bool
  | .set _ | .clear _ | .pulse _ => true
  | _ => false

end Sys2Proof.Machine
end

