-- ==== Sys2Proof/Machine/Cells.lean ====
section
/-! DEFINITION. Bit cells on the medium (R44, R45, R48, R53): the cell time, where the next level of a frame falls, what
a receiver reads from its pulses, and the pulses that a station drives. -/

namespace Sys2Proof.Machine

/-- Section 3.1: the cell time T in nanoseconds. -/
def BitRate.cellTime : BitRate → Nat
  | .k125 => 8000
  | .k250 => 4000
  | .k500 => 2000
  | .k1000 => 1000

/-- `n` eighths of the cell time `t`. -/
def eighths (t n : Nat) : Nat := n * t / 8

/-! ### Shapes (R44, R45) -/

/-- The medium is dominant at time `x`. -/
def dominantAt (w : Waveform) (x : Nat) : Bool :=
  (w.first :: w.others).any fun p => p.edge ≤ x && x < p.edge + p.length

/-- R44, R45: the dominant pulse does not have the shape of a data cell. It ends before ⅛T, or between ⅜T and ⅝T, or
is still dominant at ⅞T, or a second edge comes before the next opening can. -/
def cellBroken (t : Nat) (w : Waveform) : Bool :=
  w.first.length < eighths t 1
    || (eighths t 3 < w.first.length && w.first.length < eighths t 5)
    || eighths t 7 < w.first.length
    || w.others.any fun p => p.edge < w.first.edge + eighths t 7

/-- R45: a start cell is broken as well where its pulse ends before ⅝T. -/
def startBroken (t : Nat) (w : Waveform) : Bool := cellBroken t w || w.first.length < eighths t 5

/-- R44: what a receiver reads from a cell that an edge has opened: the level at ½T. -/
def readCell (t : Nat) (w : Waveform) : Cell :=
  if cellBroken t w then .broken else .bit (!dominantAt w (w.first.edge + eighths t 4))

/-- R46, R47: the record that begins at a start cell. -/
def startRecord (t : Nat) (w : Waveform) : List Cell := if startBroken t w then [.broken] else []

/-! ### Places (R44, R48) -/

/-- Where a level begins against the moment at which the next opening is due. -/
inductive CellPlace where
  /-- Too early for an opening: a second edge within the cell before (R45). -/
  | within
  /-- Within ⅛T of that moment (R44). -/
  | opening
  /-- After that and by ⅜T: the cell is the check slot (R48). -/
  | slot
  /-- Later: the frame has stopped (R48). -/
  | stopped
  deriving DecidableEq, Repr

/-- R44, R45, R48: the place of an edge, measured from the last opening. -/
def edgePlace (t edge : Nat) : CellPlace :=
  if edge < eighths t 7 then .within
  else if edge ≤ eighths t 9 then .opening
  else if edge ≤ eighths t 11 then .slot
  else .stopped

/-- A level whose edge is the opening edge of the start cell itself. -/
def opensStart (w : Waveform) (cells : List Cell) : Bool := cells.isEmpty && w.first.edge = 0

/-- The last cell, or the start cell of an empty record, is broken (R45). -/
def breakLast (cells : List Cell) : List Cell := cells.dropLast ++ [.broken]

/-- R45, R47, R48: the record `cells` after the level `w`; none where the frame has stopped. -/
def takeCell (t : Nat) (cells : List Cell) (w : Waveform) : Option (List Cell) :=
  if opensStart w cells then some (startRecord t w)
  else
    match edgePlace t w.first.edge with
    | .within => some (breakLast cells)
    | .opening => some (cells ++ [readCell t w])
    | .slot => some cells
    | .stopped => none

/-- The record after the levels of several cells; none where one of them finds the frame stopped (R48). -/
def takeCells (t : Nat) : List Cell → List Waveform → Option (List Cell)
  | cells, [] => some cells
  | cells, w :: ws =>
    match takeCell t cells w with
    | some cells => takeCells t cells ws
    | none => none

/-- R53: a check slot is read at ¾T, from the moment its opening would have been due. -/
def slotVetoed (t : Nat) (w : Waveform) : Bool := dominantAt w (t + eighths t 6)

/-! ### What a station drives (R44), from the opening edge, or in the slot from the moment it would have been due -/

/-- A start cell: dominant to ¾T. -/
def drivenStart (t : Nat) : Pulse := ⟨0, eighths t 6⟩

/-- A data cell: a 1 is released at ¼T, a 0 held to ¾T. -/
def drivenBit (t : Nat) (b : Bool) : Pulse := ⟨0, eighths t (if b then 2 else 6)⟩

/-- R52: the slot marker, ¼T to ⅜T. -/
def slotMarker (t : Nat) : Pulse := ⟨eighths t 2, eighths t 1⟩

/-- R52: a veto, ½T to ⅞T. -/
def vetoPulse (t : Nat) : Pulse := ⟨eighths t 4, eighths t 3⟩

end Sys2Proof.Machine
end

