-- ==== Sys2Proof/Machine/State.lean ====
section
/-! DEFINITION. The state of one station, block by block (the owners are named in 00_scope.md, Block overview),
its value after a power-on reset, and the reasons a step could stop. State is plain data. -/

namespace Sys2Proof.Machine

/-! ### Commit unit (chapter 3) -/

/-- Which claim of the assembler the frame in flight carries (R74). -/
inductive Origin where
  | joinSlot
  | loss
  | update
  | rollcall
  | part
  | busy (joiner : Station)
  | release
  | busyAnswer (requester : Station)
  | sessionPart (restart : Bool)
  deriving DecidableEq, Repr

/-- The frame in flight (R61), and whether its claim was withdrawn during the flight (R74). -/
structure Flight where
  frame     : Frame
  origin    : Origin
  withdrawn : Bool
  deriving DecidableEq, Repr

structure CommitUnit where
  /-- Idle count in cell times, 0 to 10 (R46). -/
  idle      : Nat
  /-- Frame in reception: the cells since the start cell; the rest of its record is computed from them (R47). -/
  reception : Option (List Cell)
  /-- Frame in flight (R61). -/
  flight    : Option Flight
  /-- Pacing, with the milliseconds paced (R60). -/
  pacing    : Option Nat
  /-- Consecutive-veto count, 0 to 3 (R57). -/
  vetoes    : Nat
  /-- Consecutive-send-failure count, 0 to 7 (R58). -/
  failures  : Nat
  /-- The frame on the medium has been found stopped (R48), and neither has idle been reached since nor has a start cell
  or the close of a slot ended it (R46; log 41). -/
  stopped   : Bool
  deriving DecidableEq, Repr

/-! ### Shared point image (chapter 1) -/

/-- The replicated records of all points, each class in ascending point number (R1, R4 to R7). -/
structure Image where
  any   : List OnSet
  all   : List ContributorMap
  held  : List HeldRecord
  count : List CountRecord
  deriving DecidableEq, Repr

/-- R3: the initial image. -/
def Image.initial : Image where
  any := List.replicate 128 []
  all := List.replicate 48 []
  held := List.replicate 48 ⟨false, none, 0⟩
  count := List.replicate 32 ⟨0, none⟩

structure ImageBlock where
  standing : Standing
  /-- While the standing is NONE there is no image, and this holds the initial image, which nothing reads (log 20). -/
  points   : Image
  /-- Per count-class point: the pulse window, with the milliseconds since the last PULSE (R12, R13). -/
  windows  : List (Option Nat)
  deriving DecidableEq, Repr

/-! ### Roster (chapter 5) -/

/-- One roster entry (R78); the timers hold the milliseconds since they started. -/
structure RosterEntry where
  state    : RosterState
  period   : Nat
  silence  : Option Nat
  deadline : Option Nat
  deriving DecidableEq, Repr

/-- The thirty entries, station 1 first (R78). -/
abbrev Roster := List RosterEntry

/-- The empty roster: every entry ABSENT with P 0 (R78). -/
def Roster.initial : Roster := List.replicate 30 ⟨.absent, 0, none, none⟩

/-! ### Join controller (chapter 6) -/

/-- A respondent's snapshot (R101). -/
structure Snapshot where
  joiner : Station
  roster : List (RosterState × Nat)
  points : Image
  next   : Nat
  deriving DecidableEq, Repr

structure JoinController where
  attempts    : Nat
  listenTimer : Option Nat
  activity    : Bool
  candidates  : List Station
  /-- The respondent the JOIN in the join slot names, 0 for ANY (R97, R98, R104). -/
  choice      : Station
  spoiled     : Bool
  /-- Respondent of record (R103). -/
  respondent  : Option Station
  /-- Collected parts; the next expected part is their number (R103). -/
  parts       : List PartBody
  backlog     : List Frame
  answerTimer : Option Nat
  gapTimer    : Option Nat
  awaiting    : Bool
  snapshot    : Option Snapshot
  /-- Stray set, with the milliseconds since each member's last ignored frame (R111). -/
  stray       : List (Station × Nat)
  holdoff     : Option Nat
  deriving DecidableEq, Repr

/-! ### Transmit assembler (chapter 4) -/

/-- One row of the contribution table (R65, R66); `terms` is the level result of the CONTRIBUTE terms. -/
structure ContributionRow where
  point  : Point
  terms  : Bool
  link   : Bool
  flying : Option Bool
  deriving DecidableEq, Repr

/-- What an entry of the request list asks for (R67). -/
inductive Wish where
  | set
  | clear
  | pulses (n : Nat)
  deriving DecidableEq, Repr

/-- One entry of the request list (R67). -/
structure RequestEntry where
  point  : Point
  wish   : Wish
  flying : Bool
  deriving DecidableEq, Repr

/-- The frames of the join slot (R74). -/
inductive JoinFrame where
  | join
  | entry
  deriving DecidableEq, Repr

/-- The frames of the response slot (R168). -/
inductive Response where
  | busyAnswer (requester : Station)
  | sessionPart
  deriving DecidableEq, Repr

structure Assembler where
  rows         : List ContributionRow
  /-- The FAULT line's part of the fault-indication point's desired value (R65, R158). -/
  faultPart    : Bool
  requests     : List RequestEntry
  lossSet      : List Station
  rollTimer    : Option Nat
  rollDue      : Bool
  joinSlot     : Option JoinFrame
  /-- Whether the respondent slot holds the IMAGE part of the snapshot's next number (R101). -/
  partSlot     : Bool
  busySet      : List Station
  responseSlot : Option Response
  releaseSlot  : Option Station
  deriving DecidableEq, Repr

/-! ### Term evaluator (chapter 7) -/

/-- The value the evaluator holds for every source (R116). -/
structure Sources where
  inputs    : List Bool
  markers   : List Bool
  points    : List Bool
  timers    : List Bool
  counters  : List Bool
  peers     : List Bool
  ownActive : Bool
  ownFault  : Bool
  deriving DecidableEq, Repr

/-- The values of the level targets other than markers (R119). -/
structure Levels where
  outputs     : List Bool
  contribs    : List (Point × Bool)
  coils       : List Bool
  resets      : List Bool
  countResets : List Bool
  deriving DecidableEq, Repr

structure Evaluator where
  src             : Sources
  /-- Result of every term (R117). -/
  results         : List Bool
  /-- Remembered result of every SET, CLEAR and PULSE term (R120); OFF for other terms. -/
  remembered      : List Bool
  /-- Remembered count level of every counter (R121). -/
  countRemembered : List Bool
  /-- State of G0 to G8 (R123). -/
  gates           : List GateState
  levels          : Levels
  /-- Value of the capture trigger literal last handed to capture (R129, R163). -/
  triggerHanded   : Bool
  deriving DecidableEq, Repr

/-! ### Timers and counters (chapter 8) -/

inductive TimerPhase where
  | idle
  | timing
  | paused
  | energised
  | elapsed
  deriving DecidableEq, Repr

/-- One timer (R134, R135); `clock` is the unit clock in milliseconds. -/
structure TimerState where
  coil   : Bool
  reset  : Bool
  isOpen : Bool
  value  : Nat
  done   : Bool
  phase  : TimerPhase
  clock  : Option Nat
  deriving DecidableEq, Repr

/-- One counter (R134, R141). -/
structure CounterState where
  reset  : Bool
  isOpen : Bool
  value  : Nat
  done   : Bool
  deriving DecidableEq, Repr

structure TimerUnit where
  timers   : List TimerState
  counters : List CounterState
  deriving DecidableEq, Repr

/-! ### Field line unit (chapter 9) -/

/-- One input: its line, its filtered value and its filter run in milliseconds (R146). -/
structure FieldInput where
  line     : Bool
  filtered : Bool
  run      : Option Nat
  deriving DecidableEq, Repr

inductive CheckPhase where
  | off
  | settling
  | watching
  | differing
  | latched
  deriving DecidableEq, Repr

/-- One output (R148 to R153); `timer` is the settle or the mismatch timer of the phase. -/
structure FieldOutput where
  commanded : Bool
  hold      : Bool
  driven    : Bool
  readback  : Bool
  phase     : CheckPhase
  timer     : Option Nat
  deriving DecidableEq, Repr

structure FieldUnit where
  inputs  : List FieldInput
  outputs : List FieldOutput
  deriving DecidableEq, Repr

/-! ### Fault and capture unit (chapter 10) -/

/-- The fault kinds, in the order of R156's table. -/
inductive FaultKind where
  | configInvalid
  | stationStrap
  | duplicateStation
  | attemptsExhausted
  | vetoBudget
  | sendRetries
  | namedLost
  | periodMismatch
  | outputReadback
  | pulseOverflow
  deriving DecidableEq, Repr

/-- The subject of a fault (R156). -/
inductive Subject where
  | config (code entry : Nat)
  | station (s : Station)
  | output (n : Nat)
  | point (p : Point)
  deriving DecidableEq, Repr

structure FaultRecord where
  kind      : FaultKind
  subject   : Option Subject
  stamp     : Word16
  lifecycle : Lifecycle
  deriving DecidableEq, Repr

structure FaultUnit where
  record  : Option FaultRecord
  /-- Per-kind counts in kind order, saturating at 255 (R157). -/
  counts  : List Nat
  /-- Latched-output indication (R158). -/
  latched : Bool
  deriving DecidableEq, Repr

inductive RecordKind where
  | level
  | set
  | clear
  | pulse
  | join
  | entry
  | loss
  | release
  deriving DecidableEq, Repr

/-- What a committed frame gives capture for one record, before it has an index (R161). -/
structure RecordBody where
  kind    : RecordKind
  station : Station
  point   : Option Point
  value   : Option Bool
  count   : Option Word16
  deriving DecidableEq, Repr

/-- One record of the capture ring (R161). -/
structure CaptureRecord where
  index   : Word16
  ordinal : Byte
  stamp   : Word16
  body    : RecordBody
  deriving DecidableEq, Repr

inductive CaptureMode where
  | off
  | armed
  | triggered
  | frozen
  deriving DecidableEq, Repr

structure CaptureUnit where
  mode         : CaptureMode
  ring         : List CaptureRecord
  nextIndex    : Word16
  nextOrdinal  : Byte
  remaining    : Nat
  triggerIndex : Option Word16
  deriving DecidableEq, Repr

/-! ### Service unit (chapter 11) -/

/-- The open session (R166). `answer` is the status of the answering part of a command (R172, R173). -/
structure Session where
  requester : Station
  tag       : Byte
  request   : Request
  parts     : Nat
  next      : Nat
  releasing : Bool
  answer    : Status
  deriving DecidableEq, Repr

structure ServiceUnit where
  session  : Option Session
  /-- BUSY answers owed, oldest first (R167). -/
  busyList : List (Station × Byte)
  deriving DecidableEq, Repr

/-! ### Configuration loader (chapter 12) -/

/-- The transfer the loader waits for (R178). -/
inductive LoaderPhase where
  | none
  | header
  | body (header : List Byte)
  deriving DecidableEq, Repr

structure Loader where
  number : Station
  straps : BitVec 5
  /-- RESET_N is low, or the supplies have not settled after power-on (R176). -/
  held   : Bool
  phase  : LoaderPhase
  config : Option StationSetup
  deriving DecidableEq, Repr

/-! ### Hand-offs between blocks -/

/-- A hand-off on its way from one block to another inside a command (R54, R127). -/
inductive HandOff where
  /-- The points that one event at the image has changed, each with its value: every term evaluated from here on
  sees them all, while their source changes are still to be taken (R18). -/
  | pointsApplied (changes : List (Point × Bool))
  /-- A source change for the term evaluator (R116). -/
  | source (src : Source) (on : Bool)
  /-- A lifecycle or standing change for the term evaluator (R126). -/
  | lifecycleToEvaluator
  /-- A lifecycle change for the field line unit (R149). -/
  | lifecycleToField
  /-- A committed PULSE item for the counters (R20). -/
  | pulse (point : Point) (n : Nat)
  /-- The group of records of one committed frame for capture (R161). -/
  | group (bodies : List RecordBody)
  /-- A report for the fault unit, with the lifecycle in which it was made (R156). -/
  | report (kind : FaultKind) (subject : Option Subject) (lifecycle : Lifecycle)
  deriving DecidableEq, Repr

/-- The state of the station. -/
structure State where
  pending   : List Instr
  lifecycle : Lifecycle
  timeBase  : Word16
  loader    : Loader
  commit    : CommitUnit
  image     : ImageBlock
  roster    : Roster
  join      : JoinController
  asm       : Assembler
  eval      : Evaluator
  timers    : TimerUnit
  field     : FieldUnit
  fault     : FaultUnit
  capture   : CaptureUnit
  service   : ServiceUnit
  /-- Hand-offs the running command's blocks have made; empty between commands (log 3). -/
  agenda    : List HandOff
  /-- Hand-offs that answer other hand-offs (done states, OWN-FAULT); empty between commands unless the
  bound of log 4 was met. -/
  echoes    : List HandOff
  /-- The counter the free values are applied to (log 5). -/
  freeIndex : Nat
  deriving DecidableEq, Repr

/-- The machine never stops with a fault: the manual names no command that ends it. The faults of chapter 10
are reports kept in `fault`. -/
inductive Fault where
  deriving DecidableEq, Repr

/-- Why a step could have no meaning. -/
inductive Refusal where
  /-- Raised by `exec` for a command that has no meaning yet; safe. No arm raises it. -/
  | notModelled (mnemonic : String)
  deriving DecidableEq, Repr

/-! ### Values after reset, block by block -/

/-- R63: power-on reset, RESTART. -/
def CommitUnit.reset : CommitUnit := ⟨0, none, none, none, 0, 0, false⟩

/-- R2, R3: standing NONE, no image, no window. -/
def ImageBlock.reset : ImageBlock := ⟨.none, Image.initial, List.replicate 32 none⟩

/-- R95, R96, R103, R105, R111: nothing under way, attempt count 0. -/
def JoinController.reset : JoinController where
  attempts := 0
  listenTimer := none
  activity := false
  candidates := []
  choice := 0
  spoiled := false
  respondent := none
  parts := []
  backlog := []
  answerTimer := none
  gapTimer := none
  awaiting := false
  snapshot := none
  stray := []
  holdoff := none

/-- R64. -/
def Assembler.reset : Assembler where
  rows := []
  faultPart := false
  requests := []
  lossSet := []
  rollTimer := none
  rollDue := false
  joinSlot := none
  partSlot := false
  busySet := []
  responseSlot := none
  releaseSlot := none

/-- R116, R133: every source value OFF. -/
def Sources.reset : Sources where
  inputs := List.replicate 16 false
  markers := List.replicate 32 false
  points := List.replicate 256 false
  timers := List.replicate 16 false
  counters := List.replicate 8 false
  peers := List.replicate 30 false
  ownActive := false
  ownFault := false

/-- R119: every level target OFF. -/
def Levels.reset : Levels where
  outputs := List.replicate 12 false
  contribs := []
  coils := List.replicate 16 false
  resets := List.replicate 16 false
  countResets := List.replicate 8 false

/-- R133: no configuration, everything OFF, every gate CLOSED. -/
def Evaluator.reset : Evaluator where
  src := Sources.reset
  results := []
  remembered := []
  countRemembered := List.replicate 8 false
  gates := List.replicate 9 .closed
  levels := Levels.reset
  triggerHanded := false

/-- R134, R135. -/
def TimerState.initial : TimerState := ⟨false, false, false, 0, false, .idle, none⟩

/-- R134, R141. -/
def CounterState.initial : CounterState := ⟨false, false, 0, false⟩

def TimerUnit.reset : TimerUnit := ⟨List.replicate 16 TimerState.initial, List.replicate 8 CounterState.initial⟩

/-- R147 and the pin's level, which no reset changes. -/
def FieldInput.resetWith (line : Bool) : FieldInput := ⟨line, false, none⟩

/-- R148, R150, R152, R155 and the readback pin's level. -/
def FieldOutput.resetWith (readback : Bool) : FieldOutput := ⟨false, false, false, readback, .off, none⟩

def FieldUnit.reset : FieldUnit where
  inputs := List.replicate 16 (FieldInput.resetWith false)
  outputs := List.replicate 12 (FieldOutput.resetWith false)

/-- R160, power-on reset. -/
def FaultUnit.reset : FaultUnit := ⟨none, List.replicate 10 0, false⟩

/-- R164, power-on reset. -/
def CaptureUnit.reset : CaptureUnit := ⟨.off, [], 0, 0, 0, none⟩

/-- R166, R167. -/
def ServiceUnit.reset : ServiceUnit := ⟨none, []⟩

/-- R176: held in reset; no number and no configuration. -/
def Loader.reset : Loader := ⟨0, 0, true, .none, none⟩

/-- The station right after a power-on reset (R176): START, every block at its reset value, the loader waiting
for the supplies to settle. -/
def State.reset : State where
  pending := []
  lifecycle := .start
  timeBase := 0
  loader := Loader.reset
  commit := CommitUnit.reset
  image := ImageBlock.reset
  roster := Roster.initial
  join := JoinController.reset
  asm := Assembler.reset
  eval := Evaluator.reset
  timers := TimerUnit.reset
  field := FieldUnit.reset
  fault := FaultUnit.reset
  capture := CaptureUnit.reset
  service := ServiceUnit.reset
  agenda := []
  echoes := []
  freeIndex := 0

end Sys2Proof.Machine
end

