-- ==== Sys2Proof/Machine/Ops.lean ====
section
/-! DEFINITION. Shared operations: ascending sets and maps of stations, lookups in State, the choice among
hand-offs of which either may be taken first, and posting hand-offs. -/

namespace Sys2Proof.Machine

/-! ### Sets and maps of stations, kept ascending without repeats -/

/-- Add a station to an ascending set; a member stays once. -/
def insertStation (s : Station) : List Station → List Station
  | [] => [s]
  | t :: rest => if s < t then s :: t :: rest else if s = t then t :: rest else t :: insertStation s rest

/-- Remove a station from a set. -/
def eraseStation (s : Station) (set : List Station) : List Station :=
  set.filter (fun t => t ≠ s)

/-- Create or overwrite a station's entry in an ascending map (R10). -/
def putEntry {α : Type} (s : Station) (v : α) : List (Station × α) → List (Station × α)
  | [] => [(s, v)]
  | (t, w) :: rest =>
    if s < t then (s, v) :: (t, w) :: rest else if s = t then (t, v) :: rest else (t, w) :: putEntry s v rest

/-- Remove a station's entry from a map. -/
def eraseEntry {α : Type} (s : Station) (m : List (Station × α)) : List (Station × α) :=
  m.filter (fun e => e.1 ≠ s)

/-- The value of a station's entry. -/
def entryOf? {α : Type} (s : Station) (m : List (Station × α)) : Option α :=
  (m.find? (fun e => e.1 = s)).map Prod.snd

/-! ### Lookups -/

/-- The loaded configuration, or the blank one (R133, R181). -/
def State.setup (s : State) : StationSetup := s.loader.config.getD StationSetup.blank

/-- This station's own link period (00_scope.md, Link period). -/
def State.ownPeriod (s : State) : Nat := s.setup.period

/-- This station's number (R177). -/
def State.number (s : State) : Station := s.loader.number

/-- The lifecycle states in which a station takes part in the medium at all (R56). -/
def Lifecycle.onMedium : Lifecycle → Bool
  | .listen | .joining | .active => true
  | .start | .configFault | .detached | .linkFault => false

/-- The lifecycle states in which a station judges and vetoes (R52). -/
def Lifecycle.participates : Lifecycle → Bool
  | .joining | .active => true
  | .start | .configFault | .listen | .detached | .linkFault => false

/-- A roster entry by station number; numbers outside 1 to 30 read as ABSENT. -/
def Roster.entry (r : Roster) (s : Station) : RosterEntry :=
  if s = 0 then ⟨.absent, 0, none, none⟩ else r.getD (s - 1) ⟨.absent, 0, none, none⟩

/-- The roster state of a station (R78). -/
def Roster.stateOf (r : Roster) (s : Station) : RosterState := (r.entry s).state

/-- Change one entry of the roster. -/
def Roster.update (r : Roster) (s : Station) (f : RosterEntry → RosterEntry) : Roster :=
  if s = 0 then r else r.modify (s - 1) f

/-- The stations 1 to 30 in ascending order. -/
def allStations : List Station := (List.range 30).map (· + 1)

/-! ### Timers and their limits, in milliseconds

An expiry is the moment at which a running timer reaches its limit. A command that restarts or stops the timer first
makes the expiry not happen (log 2). -/

/-- A timer that runs and has reached the limit. -/
def reached (timer : Option Nat) (limit : Nat) : Bool :=
  match timer with
  | some t => limit ≤ t
  | none => false

/-- R96: the listen period. -/
def State.listenLimit (s : State) : Nat := Config.listenPeriods * s.ownPeriod

/-- R103: the answer timer. -/
def State.answerLimit (s : State) : Nat := Config.answerPeriods * s.ownPeriod

/-- R103, R104: the part gap is exceeded one millisecond after it is reached. -/
def State.gapLimit (s : State) : Nat := Config.answerPeriods * s.ownPeriod + 1

/-- R114: the rejoin holdoff. -/
def State.holdoffLimit (s : State) : Nat := Config.holdoffPeriods * s.ownPeriod + s.number

/-- R111: a member of the stray set. -/
def State.strayLimit (s : State) : Nat := Config.strayPeriods * s.ownPeriod

/-- R85: a silence timer exceeds three periods of its station one millisecond after it has reached them. -/
def RosterEntry.silenceLimit (e : RosterEntry) : Nat := Config.silencePeriods * e.period + 1

/-- R86: an entry deadline exceeds eighty periods of its station one millisecond after it has reached them. -/
def RosterEntry.deadlineLimit (e : RosterEntry) : Nat := Config.deadlinePeriods * e.period + 1

/-! ### Free choices (log 3) -/

/-- Choose a number below `n`; where only one is possible nothing is drawn. -/
def State.draw (s : State) (n : Nat) : Nat × State :=
  if n ≤ 1 then (0, s) else (Config.choice s.freeIndex % n, { s with freeIndex := s.freeIndex + 1 })

/-- The pair of blocks between which a hand-off passes: hand-offs of one channel keep their order (R131).
The done changes of one event and the filtered values of one moment have no order the manual gives, so each
timer, counter and input is a channel of its own (log 18). -/
inductive Channel where
  | points
  | peers
  | timer (n : Nat)
  | counter (n : Nat)
  | input (n : Nat)
  | ownFault
  | marker (n : Nat)
  | ownActive
  | lifecycleToEvaluator
  | lifecycleToField
  | pulses
  | capture
  | reports
  deriving DecidableEq, Repr

/-- The channel of a hand-off. -/
def HandOff.channel : HandOff → Channel
  | .pointsApplied _ => .points
  | .source (.point _) _ => .points
  | .source (.peer _) _ => .peers
  | .source (.timer n) _ => .timer n
  | .source (.counter n) _ => .counter n
  | .source (.input n) _ => .input n
  | .source (.marker n) _ => .marker n
  | .source .ownActive _ => .ownActive
  | .source .ownFault _ => .ownFault
  | .lifecycleToEvaluator => .lifecycleToEvaluator
  | .lifecycleToField => .lifecycleToField
  | .pulse _ _ => .pulses
  | .group _ => .capture
  | .report _ _ _ => .reports

/-- The places of the hand-offs that may be taken next: the first of each channel. -/
def readyPlaces (seen : List Channel) (place : Nat) : List HandOff → List Nat
  | [] => []
  | h :: rest =>
    if seen.contains h.channel then readyPlaces seen (place + 1) rest
    else place :: readyPlaces (h.channel :: seen) (place + 1) rest

/-- Choose one of the hand-offs that may be taken next: its place in the list. -/
def State.drawPlace (s : State) (waiting : List HandOff) : Nat × State :=
  let ready := readyPlaces [] 0 waiting
  let (k, s) := s.draw ready.length
  (ready.getD k 0, s)

/-- Post hand-offs of the running command. -/
def State.post (s : State) (hs : List HandOff) : State := { s with agenda := s.agenda ++ hs }

/-- Post hand-offs that answer a hand-off. -/
def State.postEcho (s : State) (hs : List HandOff) : State := { s with echoes := s.echoes ++ hs }

end Sys2Proof.Machine
end

