-- ==== Sys2Proof/Machine/Flags.lean ====
section
/-! DEFINITION. The values that are computed from State and shown by it: the FAULT line, the pulse flags, the idle
state, the latched output faults, and the codes that report states and kinds (R157, R158, R175). -/

namespace Sys2Proof.Machine

/-- R158: the FAULT line. -/
def FaultUnit.line (f : FaultUnit) : Bool := f.record.isSome || f.latched

/-- The code of a fault kind: its place in the table of R156 (R175). -/
def FaultKind.code : FaultKind → Nat
  | .configInvalid => 0
  | .stationStrap => 1
  | .duplicateStation => 2
  | .attemptsExhausted => 3
  | .vetoBudget => 4
  | .sendRetries => 5
  | .namedLost => 6
  | .periodMismatch => 7
  | .outputReadback => 8
  | .pulseOverflow => 9

/-- R175: the lifecycle codes of READ-FAULT. -/
def Lifecycle.code : Lifecycle → Nat
  | .start => 0
  | .configFault => 1
  | .listen => 2
  | .joining => 3
  | .active => 4
  | .detached => 5
  | .linkFault => 6

/-- R175: the capture state codes. -/
def CaptureMode.code : CaptureMode → Nat
  | .off => 0
  | .armed => 1
  | .triggered => 2
  | .frozen => 3

/-- R175: the record kind codes. -/
def RecordKind.code : RecordKind → Nat
  | .level => 0
  | .set => 1
  | .clear => 2
  | .pulse => 3
  | .join => 4
  | .entry => 5
  | .loss => 6
  | .release => 7

/-- R175: the gate state codes. -/
def GateState.code : GateState → Nat
  | .closed => 0
  | .preview => 1
  | .opened => 2

/-- R175: the class codes of READ-POINT. -/
def PointClass.code : PointClass → Nat
  | .any => 0
  | .all => 1
  | .held => 2
  | .count => 3

/-- The number whose bit i is the i-th level. -/
def packLow : List Bool → Nat
  | [] => 0
  | b :: rest => b.toNat + 2 * packLow rest

/-- The low `n` bytes of a number, most significant byte first (R175). -/
def bigEndian : Nat → Nat → List Byte
  | 0, _ => []
  | n + 1, v => BitVec.ofNat 8 (v / 256 ^ n) :: bigEndian n v

/-- Set the bits of `mask` in a byte to those of a free value: bits to which R175 gives no content (log 6). -/
def fillUnstated (b : Byte) (mask : Byte) (free : Word16) : Byte :=
  (b &&& ~~~mask) ||| (free.setWidth 8 &&& mask)

/-- Idle has been reached (R46). -/
def CommitUnit.idleReached (c : CommitUnit) : Bool := Config.idleCells ≤ c.idle

/-- The pulse flag of the i-th count-class point: ON while its window runs (R7). -/
def ImageBlock.pulseFlag (b : ImageBlock) (i : Nat) : Bool := (b.windows.getD i none).isSome

/-- The outputs whose readback fault is latched, ascending: the set of R153. -/
def FieldUnit.latchedOutputs (f : FieldUnit) : List Nat :=
  (List.range f.outputs.length).filter fun n =>
    match f.outputs[n]? with
    | some o => o.phase = .latched
    | none => false

end Sys2Proof.Machine
end

