-- ==== Sys2Proof/Machine/Capture.lean ====
section
/-! DEFINITION. The capture ring, its states and its trigger (R161 to R164). -/

namespace Sys2Proof.Machine

/-- R161: a record is added with the next index; a full ring first loses its oldest record. -/
def CaptureUnit.addRecord (c : CaptureUnit) (stamp : Word16) (ordinal : Byte) (body : RecordBody) : CaptureUnit :=
  let kept := if Config.ringCapacity ≤ c.ring.length then c.ring.drop (c.ring.length + 1 - Config.ringCapacity) else c.ring
  { c with ring := kept ++ [⟨c.nextIndex, ordinal, stamp, body⟩], nextIndex := c.nextIndex + 1 }

/-- R162: records are added one by one; while TRIGGERED each lowers the remaining post count, and at 0 capture is
FROZEN and the rest of the group is not added. -/
def CaptureUnit.addRecords (c : CaptureUnit) (stamp : Word16) (ordinal : Byte) : List RecordBody → CaptureUnit
  | [] => c
  | body :: rest =>
    match c.mode with
    | .armed => (c.addRecord stamp ordinal body).addRecords stamp ordinal rest
    | .triggered =>
      let added := { c.addRecord stamp ordinal body with remaining := c.remaining - 1 }
      if added.remaining = 0 then { added with mode := .frozen } else added.addRecords stamp ordinal rest
    | .off | .frozen => c

/-- R161, R162: the group of one frame; a frame that adds no record takes no ordinal. -/
def CaptureUnit.addGroup (c : CaptureUnit) (stamp : Word16) (bodies : List RecordBody) : CaptureUnit :=
  if bodies.isEmpty || c.mode = .off || c.mode = .frozen then c
  else
    let added := c.addRecords stamp c.nextOrdinal bodies
    { added with nextOrdinal := c.nextOrdinal + 1 }

/-- R162: a trigger is taken while ARMED only. -/
def CaptureUnit.takeTrigger (c : CaptureUnit) (postCount : Nat) : CaptureUnit :=
  if c.mode = .armed then
    { c with
      triggerIndex := some c.nextIndex
      remaining := postCount
      mode := if postCount = 0 then .frozen else .triggered }
  else c

/-- R162, R172: ARM-CAPTURE empties the ring; the next index and next ordinal carry on. DESIGN CHOICE: the remaining
post count, of which R162 and R172 say nothing where capture was TRIGGERED, becomes 0 (log 35). -/
def CaptureUnit.arm (c : CaptureUnit) : CaptureUnit :=
  { c with mode := .armed, ring := [], triggerIndex := none, remaining := 0 }

/-- R164: capture after a RESTART: a FROZEN ring is kept, indices carry on. -/
def CaptureUnit.afterRestart (c : CaptureUnit) : CaptureUnit :=
  if c.mode = .frozen then c
  else { CaptureUnit.reset with nextIndex := c.nextIndex, nextOrdinal := c.nextOrdinal }

/-- R164, R182: at the handover capture becomes ARMED if auto-arm is set and the ring is not FROZEN. -/
def CaptureUnit.atHandover (c : CaptureUnit) (autoArm : Bool) : CaptureUnit :=
  if autoArm && c.mode ≠ .frozen then { c with mode := .armed } else c

/-- A trigger reaches capture (R163). -/
def State.captureTrigger (s : State) : State :=
  { s with capture := s.capture.takeTrigger s.setup.capture.postCount }

/-- A group reaches capture (R161). -/
def State.captureGroup (s : State) (bodies : List RecordBody) : State :=
  { s with capture := s.capture.addGroup s.timeBase bodies }

end Sys2Proof.Machine
end

