-- ==== Sys2Proof/Machine/FaultUnit.lean ====
section
/-! DEFINITION. The first-fault record, the per-kind counts and the FAULT line (R156 to R160). -/

namespace Sys2Proof.Machine

/-- R157: the count of a kind increases by one and saturates at 255. -/
def bumpCount (counts : List Nat) (k : FaultKind) : List Nat :=
  counts.modify k.code (fun n => if n < 255 then n + 1 else n)

/-- R157: the record is written if absent, then the kind is counted. -/
def FaultUnit.takeReport (f : FaultUnit) (k : FaultKind) (subject : Option Subject) (stamp : Word16)
    (lifecycle : Lifecycle) : FaultUnit :=
  { f with
    record := match f.record with
      | some r => some r
      | none => some ⟨k, subject, stamp, lifecycle⟩
    counts := bumpCount f.counts k }

/-- R158: where the FAULT line has changed, OWN-FAULT is handed to the evaluator and the line's part of the
fault-indication point's desired value to the assembler. -/
def State.faultLineMoved (before : Bool) (s : State) : State :=
  if s.fault.line = before then s
  else
    { s with
      asm := { s.asm with faultPart := s.fault.line }
      echoes := s.echoes ++ [.source .ownFault s.fault.line] }

/-- R156, R157, R163: one report at the fault unit; the record becoming present is the fault trigger. -/
def State.takeReport (s : State) (k : FaultKind) (subject : Option Subject) (lifecycle : Lifecycle) : State :=
  let line := s.fault.line
  let fresh := s.fault.record.isNone
  let s := { s with fault := s.fault.takeReport k subject s.timeBase lifecycle }
  let s := if fresh && s.setup.capture.faultTrigger then s.captureTrigger else s
  s.faultLineMoved line

/-- A report made and taken at once, with the lifecycle as it stands (R156). -/
def State.report (s : State) (k : FaultKind) (subject : Option Subject) : State :=
  s.takeReport k subject s.lifecycle

/-- R158: the field line unit's hand-off of the latched set becoming empty or not empty. -/
def State.latchedIndication (s : State) (on : Bool) : State :=
  let line := s.fault.line
  { s with fault := { s.fault with latched := on } }.faultLineMoved line

/-- R159, steps 1, 2 and 4: the record becomes absent, and the counts 0 where the flag is ON. -/
def State.clearRecord (s : State) (counts : Bool) : State :=
  let line := s.fault.line
  { s with
    fault := { s.fault with
      record := none
      counts := if counts then List.replicate 10 0 else s.fault.counts } }.faultLineMoved line

/-- R160: the fault unit after a RESTART. -/
def FaultUnit.afterRestart (f : FaultUnit) : FaultUnit := { f with latched := false }

end Sys2Proof.Machine
end

