-- ==== Sys2Proof/Machine/FieldLines.lean ====
section
/-! DEFINITION. The field line unit: input filters, driven levels, hold levels and the readback check
(R146 to R155). -/

namespace Sys2Proof.Machine

/-! ### Inputs -/

/-- R146: a change of the line level at a watched input, with filter time `filter`. -/
def FieldInput.lineChange (i : FieldInput) (filter : Nat) (level : Bool) : FieldInput :=
  if level = i.filtered then { i with line := level, run := none }
  else if filter = 0 then { i with line := level, filtered := level, run := none }
  else { i with line := level, run := some 0 }

/-- R146: the expiry of a filter run that has reached the filter time. -/
def FieldInput.runExpiry (i : FieldInput) (filter : Nat) : FieldInput :=
  if reached i.run filter then { i with filtered := !i.filtered, run := none } else i

/-- R147: at the handover an input starts as if its line had just changed from OFF to its present level. -/
def FieldInput.atHandover (i : FieldInput) (filter : Nat) : FieldInput :=
  ({ i with filtered := false, run := none }).lineChange filter i.line

/-- The lines are watched from the handover to LISTEN on (R147). -/
def Lifecycle.watchesLines : Lifecycle → Bool
  | .start | .configFault => false
  | .listen | .joining | .active | .detached | .linkFault => true

/-- Replace input `n`, and post its source change where its filtered value has changed (R146). -/
def State.putInput (s : State) (n : Nat) (before after : FieldInput) : State :=
  let s := { s with field := { s.field with inputs := s.field.inputs.set n after } }
  if after.filtered = before.filtered then s else s.post [.source (.input n) after.filtered]

/-! ### Outputs -/

/-- R149: the driven level; the first row that applies decides. -/
def drivenLevel (life : Lifecycle) (setup : OutputSetup) (o : FieldOutput) : Bool :=
  if o.phase = .latched then false
  else if life ≠ .active then (if setup.hold then o.hold else false)
  else o.commanded

/-- R152: a change of the driven level at the readback check. -/
def FieldOutput.drive (o : FieldOutput) (level : Bool) : FieldOutput :=
  if level = o.driven then o
  else
    match o.phase with
    | .off | .latched => { o with driven := level }
    | .settling | .watching | .differing => { o with driven := level, phase := .settling, timer := some 0 }

/-- R149, R150: after an event the driven level is decided anew, and while ACTIVE the hold level takes it. -/
def FieldOutput.settle (life : Lifecycle) (setup : OutputSetup) (o : FieldOutput) : FieldOutput :=
  let o := o.drive (drivenLevel life setup o)
  if life = .active then { o with hold := o.driven } else o

/-- R152: the readback line changes. -/
def FieldOutput.readbackChange (o : FieldOutput) (level : Bool) : FieldOutput :=
  let o := { o with readback := level }
  match o.phase with
  | .watching => if level = o.driven then o else { o with phase := .differing, timer := some 0 }
  | .differing => if level = o.driven then { o with phase := .watching, timer := none } else o
  | .off | .settling | .latched => o

/-- R152: the settle timer reaches the settle time. -/
def FieldOutput.settleExpiry (setup : OutputSetup) (o : FieldOutput) : FieldOutput :=
  if o.phase = .settling && reached o.timer setup.settle then
    if o.readback = o.driven then { o with phase := .watching, timer := none }
    else { o with phase := .differing, timer := some 0 }
  else o

/-- R152: whether the mismatch timer has reached the settle time. -/
def FieldOutput.mismatchExpires (setup : OutputSetup) (o : FieldOutput) : Bool :=
  o.phase = .differing && reached o.timer setup.settle

/-- R152: at the handover the check of an enabled output enters SETTLING. -/
def FieldOutput.atHandover (o : FieldOutput) (setup : OutputSetup) : FieldOutput :=
  if setup.check then { o with phase := .settling, timer := some 0 } else o

/-- Change output `n`. -/
def State.updateOutput (s : State) (n : Nat) (f : FieldOutput → FieldOutput) : State :=
  { s with field := { s.field with outputs := s.field.outputs.modify n f } }

/-- R148: a commanded level is handed to the unit. -/
def State.commandOutput (s : State) (n : Nat) (level : Bool) : State :=
  s.updateOutput n fun o => FieldOutput.settle s.lifecycle (s.setup.output n) { o with commanded := level }

/-- R149: a lifecycle change reaches the unit; every output is decided anew. -/
def State.fieldLifecycle (s : State) : State :=
  { s with field := { s.field with
    outputs := s.field.outputs.mapIdx fun n o => FieldOutput.settle s.lifecycle (s.setup.output n) o } }

/-- R153: the output's fault latches: the driven level is decided anew, OUTPUT-READBACK is reported, and where
the latched set was empty its change is handed to the fault unit. -/
def State.latchOutput (s : State) (n : Nat) : State :=
  let wasEmpty := s.field.latchedOutputs.isEmpty
  let s := s.updateOutput n fun o =>
    FieldOutput.settle s.lifecycle (s.setup.output n) { o with phase := .latched, timer := none }
  let s := s.report .outputReadback (some (.output n))
  if wasEmpty then s.latchedIndication true else s

/-- R154: one output at the clearing of output faults. -/
def FieldOutput.clearFault (life : Lifecycle) (setup : OutputSetup) (o : FieldOutput) : FieldOutput :=
  if o.phase = .latched then FieldOutput.settle life setup { o with phase := .settling, timer := some 0 } else o

/-- R154: the clearing of output faults; where the set was not empty, its change to empty is handed on. -/
def State.clearOutputFaults (s : State) : State :=
  let wasEmpty := s.field.latchedOutputs.isEmpty
  let s := { s with field := { s.field with
    outputs := s.field.outputs.mapIdx fun n o => FieldOutput.clearFault s.lifecycle (s.setup.output n) o } }
  if wasEmpty then s else s.latchedIndication false

/-- R155: the field lines after a power-on reset, RESET line assertion or RESTART; the pins keep their levels. -/
def FieldUnit.afterReset (f : FieldUnit) : FieldUnit where
  inputs := f.inputs.map fun i => FieldInput.resetWith i.line
  outputs := f.outputs.map fun o => FieldOutput.resetWith o.readback

end Sys2Proof.Machine
end

