-- ==== Sys2Proof/Machine/TimersCounters.lean ====
section
/-! DEFINITION. Timers and counters: their phases, unit clocks, saturation and resets (R134 to R145). -/

namespace Sys2Proof.Machine

/-! ### Timers -/

/-- R137: a DELAY-ON timer after a change of its inputs. -/
def TimerState.settleDelayOn (t : TimerState) : TimerState :=
  let run := t.coil && !t.reset && t.isOpen
  if run then
    if t.phase = .idle then { t with phase := .timing, value := 0, done := false, clock := some 0 } else t
  else { t with phase := .idle, value := 0, done := false, clock := none }

/-- R138: a DELAY-ON-HELD timer after a change of its inputs; its reset prevails. -/
def TimerState.settleHeld (t : TimerState) : TimerState :=
  if t.reset then { t with phase := .idle, value := 0, done := false, clock := none }
  else if t.coil && t.isOpen then
    match t.phase with
    | .idle | .paused => { t with phase := .timing, clock := some 0 }
    | .timing | .energised | .elapsed => t
  else
    match t.phase with
    | .timing => { t with phase := .paused, clock := none }
    | .idle | .paused | .energised | .elapsed => t

/-- R139: a DELAY-OFF timer after a change of its inputs. -/
def TimerState.settleDelayOff (t : TimerState) : TimerState :=
  if t.reset || !t.isOpen then { t with phase := .idle, value := 0, done := false, clock := none }
  else if t.coil then
    if t.phase = .energised then t else { t with phase := .energised, value := 0, done := true, clock := none }
  else
    match t.phase with
    | .energised => { t with phase := .timing, value := 0, clock := some 0 }
    | .idle | .timing | .paused | .elapsed => t

/-- A timer after a change of its inputs, by its kind. -/
def TimerState.settle (kind : TimerKind) (t : TimerState) : TimerState :=
  match kind with
  | .delayOn => t.settleDelayOn
  | .delayOnHeld => t.settleHeld
  | .delayOff => t.settleDelayOff

/-- R136: one unit expiry of a TIMING timer whose unit clock has reached its base. -/
def TimerState.unitExpiry (setup : TimerSetup) (t : TimerState) : TimerState :=
  if t.phase = .timing && reached t.clock setup.base then
    if t.value + 1 = setup.preset then
      { t with value := setup.preset, phase := .elapsed, done := setup.kind ≠ .delayOff, clock := none }
    else { t with value := t.value + 1, clock := some 0 }
  else t

/-- What one evaluator event hands a timer; an input that did not change is not handed (R129). -/
structure TimerInputs where
  standing : Option Bool
  coil     : Option Bool
  reset    : Option Bool
  deriving DecidableEq, Repr

/-- R134: the hand-offs of one evaluator event at a timer: standing, then coil, then reset, settling on each. -/
def TimerState.takeInputs (kind : TimerKind) (h : TimerInputs) (t : TimerState) : TimerState :=
  let t := match h.standing with
    | some v => TimerState.settle kind { t with isOpen := v }
    | none => t
  let t := match h.coil with
    | some v => TimerState.settle kind { t with coil := v }
    | none => t
  match h.reset with
  | some v => TimerState.settle kind { t with reset := v }
  | none => t

/-! ### Counters -/

/-- R142: an advance of size `k`. -/
def CounterState.advance (preset : Nat) (k : Nat) (c : CounterState) : CounterState :=
  if c.reset || !c.isOpen || c.done then c
  else if c.value + k < preset then { c with value := c.value + k }
  else { c with value := preset, done := true }

/-- R144: the counter's reset is handed; while it is ON the value is 0 and done is OFF. -/
def CounterState.putReset (on : Bool) (c : CounterState) : CounterState :=
  if on then { c with reset := true, value := 0, done := false } else { c with reset := false }

/-- What one evaluator event hands a counter (R121, R129). -/
structure CounterInputs where
  standing : Option Bool
  reset    : Option Bool
  counted  : Bool
  deriving DecidableEq, Repr

/-- R134: the hand-offs of one evaluator event at a counter: standing, then reset, then the count. -/
def CounterState.takeInputs (preset : Nat) (h : CounterInputs) (c : CounterState) : CounterState :=
  let c := match h.standing with
    | some v => { c with isOpen := v }
    | none => c
  let c := match h.reset with
    | some v => c.putReset v
    | none => c
  if h.counted then c.advance preset 1 else c

/-! ### The unit's events -/

/-- The source changes of done states that differ after an event (R134). -/
def doneChanges (before after : TimerUnit) : List HandOff :=
  (after.timers.zipIdx.filterMap fun (t, n) =>
    match before.timers[n]? with
    | some b => if b.done = t.done then none else some (.source (.timer n) t.done)
    | none => none) ++
  (after.counters.zipIdx.filterMap fun (c, n) =>
    match before.counters[n]? with
    | some b => if b.done = c.done then none else some (.source (.counter n) c.done)
    | none => none)

/-- The unit ends an event: done changes are handed to the evaluator. -/
def State.putTimers (s : State) (after : TimerUnit) : State :=
  { s with timers := after, echoes := s.echoes ++ doneChanges s.timers after }

/-- R20, R142: a committed pulse reaches every counter whose source is its point. -/
def State.countPulse (s : State) (p : Point) (n : Nat) : State :=
  s.putTimers
    { s.timers with
      counters := s.timers.counters.mapIdx fun i c =>
        if (s.setup.counter i).source = some p then CounterState.advance (s.setup.counter i).preset n c else c }

end Sys2Proof.Machine
end

