-- ==== Sys2Proof/Machine/Operands.lean ====
section
/-! DEFINITION. What a term reads: the value of a source, a literal and a term (R116, R117), and the state of a
gate (R122, R123). -/

namespace Sys2Proof.Machine

/-- The value the evaluator holds for a source (R116). -/
def Sources.value (src : Sources) : Source → Bool
  | .input n => src.inputs.getD n false
  | .marker n => src.markers.getD n false
  | .point p => src.points.getD p false
  | .timer n => src.timers.getD n false
  | .counter n => src.counters.getD n false
  | .peer s => if s = 0 then false else src.peers.getD (s - 1) false
  | .ownActive => src.ownActive
  | .ownFault => src.ownFault

/-- A source takes its new value. -/
def Sources.put (src : Sources) (source : Source) (v : Bool) : Sources :=
  match source with
  | .input n => { src with inputs := src.inputs.set n v }
  | .marker n => { src with markers := src.markers.set n v }
  | .point p => { src with points := src.points.set p v }
  | .timer n => { src with timers := src.timers.set n v }
  | .counter n => { src with counters := src.counters.set n v }
  | .peer s => if s = 0 then src else { src with peers := src.peers.set (s - 1) v }
  | .ownActive => { src with ownActive := v }
  | .ownFault => { src with ownFault := v }

/-- R117: a literal. -/
def Literal.on (l : Literal) (src : Sources) : Bool := src.value l.source != l.negated

/-- R117: a term's result. -/
def Term.result (t : Term) (src : Sources) : Bool := t.literals.all (fun l => l.on src)

/-- R123: the state of G0. -/
def stationGate (life : Lifecycle) (standing : Standing) : GateState :=
  match life with
  | .active => .opened
  | .joining => if standing = .complete then .preview else .closed
  | .start | .configFault | .listen | .detached | .linkFault => .closed

/-- R123: the state of a gate, following its chain of parents to G0; a chain holds at most four gates (R122). -/
def gateState (setup : StationSetup) (src : Sources) (g0 : GateState) : Nat → Nat → GateState
  | 0, _ => .closed
  | fuel + 1, n =>
    if n = 0 then g0
    else
      let g := setup.gate n
      let enabled := match g.enable with
        | none => true
        | some l => l.on src
      if enabled then gateState setup src g0 fuel g.parent else .closed

/-- R123: the states of G0 to G8. -/
def gateStates (setup : StationSetup) (src : Sources) (life : Lifecycle) (standing : Standing) : List GateState :=
  (List.range 9).map (gateState setup src (stationGate life standing) 9)

/-- R124: what a term counts for in the OR of its level target. -/
def gatedResult (target : Target) (gate : GateState) (result : Bool) : Bool :=
  match gate, target with
  | .opened, _ => result
  | .preview, .marker _ => result
  | .preview, .contribute _ => result
  | _, _ => false

end Sys2Proof.Machine
end

