-- ==== Sys2Proof/Machine/Assembler.lean ====
section
/-! DEFINITION. The transmit assembler's claims: the contribution table, the request list, the LOSS set, and what
each outcome does to them (R64 to R73). -/

namespace Sys2Proof.Machine

/-! ### Levels (R65, R66) -/

/-- R65: the own contribution points, ascending: those of CONTRIBUTE terms and the fault-indication point. -/
def ownPoints (setup : StationSetup) : List Point :=
  let named := setup.terms.filterMap fun t =>
    match t.target with
    | .contribute p => some p
    | _ => none
  (named ++ setup.faultPoint.toList).foldl (fun acc p => insertStation p acc) []

/-- The contribution table at the handover (R64, R65). -/
def contributionTable (setup : StationSetup) : List ContributionRow :=
  (ownPoints setup).map fun p => ⟨p, false, false, none⟩

/-- R65: the desired value of a row. -/
def ContributionRow.desired (r : ContributionRow) (faultPoint : Option Point) (faultPart : Bool) : Bool :=
  r.terms || (faultPart && faultPoint = some r.point)

/-- R66: a LEVEL item for the row is due. -/
def ContributionRow.due (r : ContributionRow) (faultPoint : Option Point) (faultPart : Bool) : Bool :=
  r.desired faultPoint faultPart ≠ r.link && r.flying.isNone

/-- R65: the evaluator writes the terms' part of a point's desired value. -/
def State.writeDesired (s : State) (p : Point) (v : Bool) : State :=
  { s with asm := { s.asm with rows := s.asm.rows.map fun r => if r.point = p then { r with terms := v } else r } }

/-- R66: the rows at the outcome COMMITTED of the frame that carried marked levels. -/
def rowsCommitted (rows : List ContributionRow) : List ContributionRow :=
  rows.map fun r =>
    match r.flying with
    | some v => { r with link := v, flying := none }
    | none => r

/-- R66: the rows at any other outcome. -/
def rowsFailed (rows : List ContributionRow) : List ContributionRow :=
  rows.map fun r => { r with flying := none }

/-- R76: the link values after the commit of this station's ENTRY with the given items. -/
def rowsEntered (rows : List ContributionRow) (items : List Item) : List ContributionRow :=
  rows.map fun r =>
    items.foldl (fun r item =>
      match item with
      | .level p on => if p = r.point then { r with link := on } else r
      | _ => r) r

/-! ### The request list (R67 to R70) -/

/-- The pending entry of a point. -/
def pendingOf? (l : List RequestEntry) (p : Point) : Option RequestEntry :=
  l.find? fun e => e.point = p && !e.flying

/-- The in-flight entry of a point. -/
def flyingOf? (l : List RequestEntry) (p : Point) : Option RequestEntry :=
  l.find? fun e => e.point = p && e.flying

/-- The pulses an entry carries. -/
def Wish.pulseCount : Wish → Nat
  | .pulses n => n
  | .set | .clear => 0

/-- R69: pending and in-flight pulses of a point. -/
def pulsesOf (l : List RequestEntry) (p : Point) : Nat :=
  (l.map fun e => if e.point = p then e.wish.pulseCount else 0).sum

/-- R68: a SET or CLEAR request for a point. -/
def requestHeld (l : List RequestEntry) (p : Point) (wish : Wish) : List RequestEntry :=
  match pendingOf? l p with
  | some _ => l.map fun e => if e.point = p && !e.flying then { e with wish := wish } else e
  | none => l ++ [⟨p, wish, false⟩]

/-- R69: a PULSE request for a point that is not at its limit. -/
def requestPulse (l : List RequestEntry) (p : Point) : List RequestEntry :=
  match pendingOf? l p with
  | some _ => l.map fun e => if e.point = p && !e.flying then { e with wish := .pulses (e.wish.pulseCount + 1) } else e
  | none => l ++ [⟨p, .pulses 1, false⟩]

/-- What a term that fires asks of the assembler (R120). -/
structure EdgeRequest where
  point : Point
  kind  : RecordKind
  deriving DecidableEq, Repr

/-- R68, R69: an edge request reaches the assembler; a PULSE at 255 is dropped and reported. -/
def State.takeEdgeRequest (s : State) (r : EdgeRequest) : State :=
  match r.kind with
  | .set => { s with asm := { s.asm with requests := requestHeld s.asm.requests r.point .set } }
  | .clear => { s with asm := { s.asm with requests := requestHeld s.asm.requests r.point .clear } }
  | .pulse =>
    if pulsesOf s.asm.requests r.point < Config.maxPulses then
      { s with asm := { s.asm with requests := requestPulse s.asm.requests r.point } }
    else s.report .pulseOverflow (some (.point r.point))
  | .level | .join | .entry | .loss | .release => s

/-- R70: the request list at the outcome COMMITTED: in-flight entries leave. -/
def requestsCommitted (l : List RequestEntry) : List RequestEntry :=
  l.filter fun e => !e.flying

/-- R70: one entry of the request list at a failed outcome, given the whole list. -/
def settleFailedEntry (l : List RequestEntry) (e : RequestEntry) : Option RequestEntry :=
  if e.flying then
    match pendingOf? l e.point, e.wish with
    | none, _ => some { e with flying := false }
    | some q, .pulses n => some { e with flying := false, wish := .pulses (n + q.wish.pulseCount) }
    | some _, .set => none
    | some _, .clear => none
  else
    match flyingOf? l e.point with
    | some f =>
      match f.wish with
      | .pulses _ => none
      | .set | .clear => some e
    | none => some e

/-- R70: the request list at VETOED, ABORTED or ARBITRATION-LOST. -/
def requestsFailed (l : List RequestEntry) : List RequestEntry :=
  l.filterMap (settleFailedEntry l)

/-! ### Building an UPDATE (R71) -/

/-- The item a pending entry gives. -/
def RequestEntry.item (e : RequestEntry) : Item :=
  match e.wish with
  | .set => .set e.point
  | .clear => .clear e.point
  | .pulses n => .pulse e.point n

/-- The pending entries that the next UPDATE takes: the oldest, at most twelve. -/
def takenRequests (l : List RequestEntry) : List RequestEntry :=
  (l.filter fun e => !e.flying).take Config.maxItems

/-- The rows whose LEVEL items the next UPDATE takes, in ascending point order, up to `room`. -/
def takenRows (a : Assembler) (faultPoint : Option Point) (room : Nat) : List ContributionRow :=
  (a.rows.filter fun r => r.due faultPoint a.faultPart).take room

/-- R71: the items of the next UPDATE. -/
def updateItems (a : Assembler) (faultPoint : Option Point) : List Item :=
  let requests := takenRequests a.requests
  requests.map RequestEntry.item ++
    (takenRows a faultPoint (Config.maxItems - requests.length)).map fun r =>
      .level r.point (r.desired faultPoint a.faultPart)

/-- Mark the oldest `n` pending entries in flight. -/
def markFlying : Nat → List RequestEntry → List RequestEntry
  | 0, l => l
  | _, [] => []
  | n + 1, e :: rest => if e.flying then e :: markFlying (n + 1) rest else { e with flying := true } :: markFlying n rest

/-- R66, R71: the assembler once an UPDATE has been started. -/
def Assembler.startUpdate (a : Assembler) (faultPoint : Option Point) : Assembler :=
  let requests := takenRequests a.requests
  let points := (takenRows a faultPoint (Config.maxItems - requests.length)).map (·.point)
  { a with
    requests := markFlying requests.length a.requests
    rows := a.rows.map fun r =>
      if points.contains r.point then { r with flying := some (r.desired faultPoint a.faultPart) } else r }

/-- R76: the items of the ENTRY, one per own contribution point with its desired value. -/
def entryItems (a : Assembler) (faultPoint : Option Point) : List Item :=
  a.rows.map fun r => .level r.point (r.desired faultPoint a.faultPart)

/-! ### LOSS set (R72) -/

/-- A station joins the LOSS set; this station's own number never does. -/
def State.addLoss (s : State) (t : Station) : State :=
  if t = s.number then s else { s with asm := { s.asm with lossSet := insertStation t s.asm.lossSet } }

/-- A station leaves the LOSS set. -/
def State.dropLoss (s : State) (t : Station) : State :=
  { s with asm := { s.asm with lossSet := eraseStation t s.asm.lossSet } }

/-- R64: the assembler at detach: the desired values stay as their writers hold them. -/
def Assembler.detach (a : Assembler) : Assembler :=
  { Assembler.reset with
    faultPart := a.faultPart
    rows := a.rows.map fun r => { r with link := false, flying := none } }

end Sys2Proof.Machine
end

