-- ==== Sys2Proof/Machine/Evaluator.lean ====
section
/-! DEFINITION. The term evaluator: one event is taken in passes, carries its marker cascade through, settles the
counters and hands its results on (R119 to R133). -/

namespace Sys2Proof.Machine

/-- What the evaluator reads of other blocks when it takes an event (R123). -/
structure EvalContext where
  setup    : StationSetup
  life     : Lifecycle
  standing : Standing

/-- What one event has done so far. -/
structure PassState where
  eval     : Evaluator
  /-- Requests fired, in the order they are handed on (R128). -/
  requests : List EdgeRequest
  /-- Terms touched in any pass (R121). -/
  touched  : List Nat
  /-- Gates that opened, each with whether it reopens QUIET at this event (R125). -/
  opened   : List (Nat × Bool)
  /-- Gates that changed state in any pass (R121). -/
  moved    : List Nat
  /-- The cascade list (R130). -/
  cascade  : List Nat

/-- R119: the value of a level target, the OR of the gated results of the terms that name it. -/
def targetValue (terms : List Term) (target : Target) (results : List Bool) (gates : List GateState) : Bool :=
  terms.zipIdx.any fun (t, i) =>
    t.target = target && gatedResult target (gates.getD t.gate .closed) (results.getD i false)

/-- Step 5 of R128 for one level target: recomputed where a touched term names it. -/
def settleTarget (terms : List Term) (touched : List Nat) (results : List Bool) (gates : List GateState)
    (target : Target) (old : Bool) : Bool :=
  if terms.zipIdx.any (fun (t, i) => t.target = target && touched.contains i)
  then targetValue terms target results gates else old

/-- R120: the request a term hands on when it fires. -/
def Term.request? (t : Term) : Option EdgeRequest :=
  match t.target with
  | .set p => some ⟨p, .set⟩
  | .clear p => some ⟨p, .clear⟩
  | .pulse p => some ⟨p, .pulse⟩
  | _ => none

/-- R125, step 3 of R128: the remembered result of term `i` once the gates that opened have set it. -/
def reopenRemembered (opened : List (Nat × Bool)) (t : Term) (result remembered : Bool) : Bool :=
  if t.target.isRequest then
    match opened.find? (fun g => g.1 = t.gate) with
    | some (_, true) => result
    | some (_, false) => false
    | none => remembered
  else remembered

/-- R120, step 4 of R128: whether a touched term fires. -/
def fires (t : Term) (gate : GateState) (result remembered : Bool) : Bool :=
  t.target.isRequest && gate = .opened && result && !remembered

/-- Steps 1 to 5 of R128 for a pass whose changed sources stand in `changed` and have taken their values. -/
def evalPass (ctx : EvalContext) (changed : List Source) (p : PassState) : PassState :=
  let terms := ctx.setup.terms
  let e := p.eval
  let gates := gateStates ctx.setup e.src ctx.life ctx.standing
  let gateMoved := fun g => gates.getD g .closed ≠ e.gates.getD g .closed
  let moved := (List.range 9).filter fun g => gateMoved g
  let touched := (terms.zipIdx.filter fun (t, _) =>
    t.literals.any (fun l => changed.contains l.source) || gateMoved t.gate).map Prod.snd
  let results := terms.zipIdx.map fun (t, i) => if touched.contains i then t.result e.src else e.results.getD i false
  let nowOpen := moved.filter fun g => gates.getD g .closed = .opened
  let entering := nowOpen.contains 0 || p.opened.any (fun g => g.1 = 0)
  let opened := nowOpen.map fun g => (g, entering || g = 0 || (ctx.setup.gate g).mode = .quiet)
  let reopened := terms.zipIdx.map fun (t, i) =>
    reopenRemembered opened t (results.getD i false) (e.remembered.getD i false)
  let fired := terms.zipIdx.filterMap fun (t, i) =>
    if touched.contains i && fires t (gates.getD t.gate .closed) (results.getD i false) (reopened.getD i false)
    then t.request? else none
  let remembered := terms.zipIdx.map fun (t, i) =>
    if touched.contains i && t.target.isRequest && gates.getD t.gate .closed = .opened
    then results.getD i false else reopened.getD i false
  let level := fun target old => settleTarget terms touched results gates target old
  let markers := e.src.markers.zipIdx.map fun (v, n) => level (.marker n) v
  let risen := (List.range markers.length).filter fun n => markers.getD n false ≠ e.src.markers.getD n false
  { eval := { e with
      src := { e.src with markers := markers }
      results := results
      remembered := remembered
      gates := gates
      levels :=
        { outputs := e.levels.outputs.zipIdx.map fun (v, n) => level (.output n) v
          contribs := e.levels.contribs.map fun (q, v) => (q, level (.contribute q) v)
          coils := e.levels.coils.zipIdx.map fun (v, n) => level (.timerCoil n) v
          resets := e.levels.resets.zipIdx.map fun (v, n) => level (.timerReset n) v
          countResets := e.levels.countResets.zipIdx.map fun (v, n) => level (.countReset n) v } }
    requests := p.requests ++ fired
    touched := p.touched ++ touched
    opened := p.opened ++ opened
    moved := p.moved ++ moved
    cascade := p.cascade ++ risen.filter fun n => !p.cascade.contains n }

/-- R130: a pass for each marker of the cascade list, until the list is empty. -/
def evalCascade (ctx : EvalContext) : Nat → PassState → PassState
  | 0, p => p
  | fuel + 1, p =>
    match p.cascade with
    | [] => p
    | m :: rest => evalCascade ctx fuel (evalPass ctx [.marker m] { p with cascade := rest })

/-- R121: the count level of counter `n`. -/
def countLevel (setup : StationSetup) (e : Evaluator) (n : Nat) : Bool :=
  targetValue setup.terms (.count n) e.results e.gates

/-- R121, R125: counter `n` at the end of an event: its remembered count level, and whether it is handed a count. -/
def settleCount (setup : StationSetup) (p : PassState) (n : Nat) (remembered : Bool) : Bool × Bool :=
  let own := (setup.counter n).gate
  let feeds := fun (t : Term) => decide (t.target = .count n)
  let isOpen := p.eval.gates.getD own .closed = .opened
  let touchedHere := setup.terms.zipIdx.any fun (t, i) => feeds t && p.touched.contains i
  let concerned := p.opened.filter fun g => g.1 = own || setup.terms.any (fun t => feeds t && t.gate = g.1)
  let level := countLevel setup p.eval n
  if setup.terms.any feeds && (touchedHere || p.moved.contains own) && isOpen then
    let before := if concerned.isEmpty then remembered else concerned.any (fun g => g.2) && level
    (level, level && !before)
  else (remembered, false)

/-- An event that reaches the evaluator from outside (R127). -/
inductive EvalEvent where
  | source (source : Source) (on : Bool)
  | lifecycle
  deriving DecidableEq, Repr

/-- What an event has come to: the evaluator after it, the requests fired, the counters handed a count. -/
structure EvalOutcome where
  eval     : Evaluator
  requests : List EdgeRequest
  counted  : List Nat

/-- R18: the points that one event at the image has changed take their values together. -/
def Sources.putPoints (src : Sources) (changes : List (Point × Bool)) : Sources :=
  changes.foldl (fun src c => src.put (.point c.1) c.2) src

/-- R116: whether an event hands a value that the evaluator already holds. The value of a point whose source change is
still to be taken is held already, and the image hands only points that have changed (R18). -/
def EvalEvent.isIdle (event : EvalEvent) (src : Sources) : Bool :=
  match event with
  | .source (.point _) _ => false
  | .source x on => src.value x == on
  | .lifecycle => false

/-- R128: an event is taken whole. A source change that hands the value held changes nothing (R116).
OWN-ACTIVE and G0 follow the lifecycle as it stands when the event is taken (R123, R126; log 14). -/
def takeEvent (ctx : EvalContext) (event : EvalEvent) (e : Evaluator) : EvalOutcome :=
  if event.isIdle e.src then ⟨e, [], []⟩
  else
    let src := match event with
      | .source source on => e.src.put source on
      | .lifecycle => e.src
    let own := decide (ctx.life = .active)
    let changed :=
      (match event with
        | .source source _ => [source]
        | .lifecycle => []) ++
      (if src.ownActive = own then [] else [.ownActive])
    let first := evalPass ctx changed
      ⟨{ e with src := { src with ownActive := own } }, [], [], [], [], []⟩
    let p := evalCascade ctx Config.cascadeFuel first
    let counts := (List.range 8).map fun n => settleCount ctx.setup p n (e.countRemembered.getD n false)
    ⟨{ p.eval with countRemembered := counts.map Prod.fst }, p.requests,
      (List.range 8).filter fun n => (counts.getD n (false, false)).2⟩

/-! ### Hand-offs at the end of an event (R129) -/

/-- A value that differs from the one last handed. -/
def handed (before after : Bool) : Option Bool := if before = after then none else some after

/-- The standing of a gate, OPEN or not OPEN (R124). -/
def isOpenGate (gates : List GateState) (g : Nat) : Bool := decide (gates.getD g .closed = .opened)

/-- Hand-offs 1 to 3 of R129 at the timers and counters. -/
def State.handToTimers (s : State) (before after : Evaluator) (counted : List Nat) : State :=
  let standing := fun g => handed (isOpenGate before.gates g) (isOpenGate after.gates g)
  s.putTimers
    { timers := s.timers.timers.mapIdx fun n t =>
        TimerState.takeInputs (s.setup.timer n).kind
          ⟨standing (s.setup.timer n).gate,
            handed (before.levels.coils.getD n false) (after.levels.coils.getD n false),
            handed (before.levels.resets.getD n false) (after.levels.resets.getD n false)⟩ t
      counters := s.timers.counters.mapIdx fun n c =>
        CounterState.takeInputs (s.setup.counter n).preset
          ⟨standing (s.setup.counter n).gate,
            handed (before.levels.countResets.getD n false) (after.levels.countResets.getD n false),
            counted.contains n⟩ c }

/-- R129: the commanded levels that differ, handed to the field line unit in ascending order. -/
def State.handToField (s : State) (before after : Evaluator) : State :=
  (List.range 12).foldl (fun s n =>
    match handed (before.levels.outputs.getD n false) (after.levels.outputs.getD n false) with
    | some v => s.commandOutput n v
    | none => s) s

/-- R129: the contributions that differ, handed to the assembler in ascending point order. -/
def State.handToAssembler (s : State) (before after : Evaluator) : State :=
  after.levels.contribs.foldl (fun s (p, v) =>
    if (before.levels.contribs.contains (p, v)) then s else s.writeDesired p v) s

/-- R129, R163: the capture trigger literal, where its value differs from the one last handed; its rise is a
trigger. -/
def State.handToCapture (s : State) : State :=
  match s.setup.capture.trigger with
  | some l =>
    let value := l.on s.eval.src
    let rises := value && !s.eval.triggerHanded
    let s := { s with eval := { s.eval with triggerHanded := value } }
    if rises then s.captureTrigger else s
  | none => s

/-- The context in which an event reaches the evaluator now. -/
def State.evalContext (s : State) : EvalContext := ⟨s.setup, s.lifecycle, s.image.standing⟩

/-- R127 to R130: the evaluator takes one event, and every block takes what it hands on. -/
def State.takeEvalEvent (s : State) (event : EvalEvent) : State :=
  let before := s.eval
  let o := takeEvent s.evalContext event before
  let s := { s with eval := o.eval }
  let s := o.requests.foldl State.takeEdgeRequest s
  let s := s.handToTimers before o.eval o.counted
  let s := s.handToField before o.eval
  let s := s.handToAssembler before o.eval
  s.handToCapture

/-- R133, R163: the evaluator at the handover to LISTEN; the trigger literal starts with its value there. -/
def Evaluator.atHandover (setup : StationSetup) (faultLine : Bool) : Evaluator :=
  let src := { Sources.reset with ownFault := faultLine }
  { Evaluator.reset with
    src := src
    results := setup.terms.map fun t => t.result src
    remembered := setup.terms.map fun _ => false
    triggerHanded := match setup.capture.trigger with
      | some l => l.on src
      | none => false
    levels := { Levels.reset with contribs :=
      ((ownPoints setup).filter fun p => setup.terms.any fun t => t.target = .contribute p).map fun p => (p, false) } }

/-! ### The agenda of a command (R54, R127, R131; log 3) -/

/-- A block takes a hand-off. -/
def State.takeHandOff (s : State) : HandOff → State
  | .pointsApplied changes => { s with eval := { s.eval with src := s.eval.src.putPoints changes } }
  | .source source on => s.takeEvalEvent (.source source on)
  | .lifecycleToEvaluator => s.takeEvalEvent .lifecycle
  | .lifecycleToField => s.fieldLifecycle
  | .pulse p n => s.countPulse p n
  | .group bodies => s.captureGroup bodies
  | .report kind subject lifecycle => s.takeReport kind subject lifecycle

/-- One consequent hand-off is taken, chosen among those that may come first. -/
def State.takeEcho (s : State) : State :=
  let (place, s) := s.drawPlace s.echoes
  match s.echoes[place]? with
  | some h => State.takeHandOff { s with echoes := s.echoes.eraseIdx place } h
  | none => s

/-- Take consequent hand-offs until none is left, at most `n`. -/
def runEchoes : Nat → State → State
  | 0, s => s
  | n + 1, s => if s.echoes.isEmpty then s else runEchoes n s.takeEcho

/-- Any number of the consequent hand-offs may be taken before the next thing happens. -/
def State.someEchoes (s : State) : State :=
  if s.echoes.isEmpty then s
  else
    let (k, s) := s.draw (Config.echoFuel + 1)
    runEchoes k s

/-- One hand-off of the command is taken, after any number of consequent ones. -/
def State.takeTask (s : State) : State :=
  let s := s.someEchoes
  let (place, s) := s.drawPlace s.agenda
  match s.agenda[place]? with
  | some h => State.takeHandOff { s with agenda := s.agenda.eraseIdx place } h
  | none => s

/-- Take `n` of the command's hand-offs. -/
def runTasks : Nat → State → State
  | 0, s => s
  | n + 1, s => runTasks n s.takeTask

/-- Any number of the command's hand-offs may be taken before the next thing happens. -/
def State.someTasks (s : State) : State :=
  let (k, s) := s.draw (s.agenda.length + 1)
  (runTasks k s).someEchoes

/-- The end of a command: every hand-off is taken, then the consequent ones. -/
def State.finish (s : State) : State :=
  runEchoes Config.echoFuel (runTasks s.agenda.length s)

end Sys2Proof.Machine
end

