-- ==== Sys2Proof/Machine/ImagePoints.lean ====
section
/-! DEFINITION. The shared point image: resolved values, the effects of committed frames on points, and what the
image hands on (R1 to R24). -/

namespace Sys2Proof.Machine

/-! ### Records and resolved values -/

def Image.onSet (m : Image) (p : Point) : OnSet := m.any.getD p []
def Image.contributors (m : Image) (p : Point) : ContributorMap := m.all.getD (p - 128) []
def Image.heldRecord (m : Image) (p : Point) : HeldRecord := m.held.getD (p - 176) ⟨false, none, 0⟩
def Image.countRecord (m : Image) (p : Point) : CountRecord := m.count.getD (p - 224) ⟨0, none⟩

/-- R5: an all-class point is ON if its map has an entry and every entry is ON. -/
def mapResolves (m : ContributorMap) : Bool := !m.isEmpty && m.all (fun e => e.2 = .on)

/-- R4: an any-class point is ON while its ON-set has a member. -/
def setResolves (set : OnSet) : Bool := !set.isEmpty

/-- R4 to R7, R18: the value of a point that terms read, given the pulse windows. -/
def pointValue (m : Image) (windows : List (Option Nat)) (p : Point) : Bool :=
  match pointClass? p with
  | some .any => setResolves (m.onSet p)
  | some .all => mapResolves (m.contributors p)
  | some .held => (m.heldRecord p).value
  | some .count => (windows.getD (p - 224) none).isSome
  | none => false

/-- R2, R18: the term-visible value of a point; every point reads OFF while the standing is not COMPLETE. -/
def ImageBlock.termVisible (b : ImageBlock) (p : Point) : Bool :=
  if b.standing = .complete then pointValue b.points b.windows p else false

/-! ### Items (R9 to R12) -/

/-- R9: a LEVEL item on an any-class point. -/
def levelOnSet (s : Station) (on : Bool) (set : OnSet) : OnSet :=
  if on then insertStation s set else eraseStation s set

/-- R10: a LEVEL item on an all-class point. -/
def levelOnMap (s : Station) (on : Bool) (m : ContributorMap) : ContributorMap :=
  putEntry s (if on then .on else .off) m

/-- R11: a SET (`on`) or CLEAR item on a held-class point. -/
def changeHeld (s : Station) (on : Bool) (r : HeldRecord) : HeldRecord :=
  if r.value = on then r else ⟨on, some s, r.changes + 1⟩

/-- R12: a PULSE item on a count-class point. -/
def pulseCount (s : Station) (n : Nat) (r : CountRecord) : CountRecord :=
  ⟨r.count + BitVec.ofNat 16 n, some s⟩

/-- R9 to R12: one item from sender `s`. -/
def applyItem (s : Station) (m : Image) (item : Item) : Image :=
  match item with
  | .level p on =>
    match pointClass? p with
    | some .any => { m with any := m.any.modify p (levelOnSet s on) }
    | some .all => { m with all := m.all.modify (p - 128) (levelOnMap s on) }
    | _ => m
  | .set p =>
    if pointClass? p = some .held then { m with held := m.held.modify (p - 176) (changeHeld s true) } else m
  | .clear p =>
    if pointClass? p = some .held then { m with held := m.held.modify (p - 176) (changeHeld s false) } else m
  | .pulse p n =>
    if pointClass? p = some .count then { m with count := m.count.modify (p - 224) (pulseCount s n) } else m

/-! ### Roster effects on points (R14 to R17) -/

/-- R14: loss treatment of a contributor map. -/
def mapLost (s : Station) (m : ContributorMap) : ContributorMap :=
  m.map fun e => if e.1 = s then (s, .lostOff) else e

/-- R14: loss treatment for station `s`. -/
def lossTreatment (s : Station) (m : Image) : Image :=
  { m with any := m.any.map (eraseStation s), all := m.all.map (mapLost s) }

/-- R17: the LOST-OFF entries of `s` are removed. -/
def releaseTreatment (s : Station) (m : Image) : Image :=
  { m with all := m.all.map fun c => c.filter fun e => !(e.1 = s && e.2 = .lostOff) }

/-- R16: every contribution of `s` is removed, before the ENTRY's items are applied. -/
def withdrawStation (s : Station) (m : Image) : Image :=
  { m with any := m.any.map (eraseStation s), all := m.all.map (eraseEntry s) }

/-- Loss treatment where the target was ACTIVE or JOINING before the commit (R14, R15). -/
def treatIfPresent (before : RosterState) (s : Station) (m : Image) : Image :=
  match before with
  | .active | .joining => lossTreatment s m
  | .absent | .lost => m

/-- R8: the point effect of a committed frame; `before` is the roster immediately before the commit. -/
def frameEffect (before : Roster) (f : Frame) (m : Image) : Image :=
  match f with
  | .update s items => items.foldl (applyItem s) m
  | .entry s _ items => items.foldl (applyItem s) (withdrawStation s m)
  | .loss _ t => treatIfPresent (before.stateOf t) t m
  | .join s _ _ => treatIfPresent (before.stateOf s) s m
  | .release _ t => if before.stateOf t = .lost then releaseTreatment t m else m
  | .busy _ _ | .image _ _ _ _ | .rollcall _ _ | .svcReq _ _ _ _ | .svcRsp _ _ _ _ _ _ _ => m

/-! ### What the image hands on (R18 to R20) -/

/-- The point an item names. -/
def itemPoint : Item → Point
  | .level p _ => p
  | .set p => p
  | .clear p => p
  | .pulse p _ => p

/-- The items of an UPDATE or ENTRY. -/
def frameItems : Frame → List Item
  | .update _ items => items
  | .entry _ _ items => items
  | _ => []

/-- R12: a PULSE starts its point's window, or starts it again. -/
def startWindows (windows : List (Option Nat)) (items : List Item) : List (Option Nat) :=
  items.foldl (fun ws item =>
    match item with
    | .pulse p _ => ws.set (p - 224) (some 0)
    | _ => ws) windows

/-- R8, R12: the image block applies one accepted frame while COMPLETE. -/
def ImageBlock.applyLive (b : ImageBlock) (before : Roster) (f : Frame) : ImageBlock :=
  { b with points := frameEffect before f b.points, windows := startWindows b.windows (frameItems f) }

/-- Points in the order in which each first appears among the items. -/
def firstAppearances (items : List Item) : List Point :=
  (items.map itemPoint).foldl (fun seen p => if seen.contains p then seen else seen ++ [p]) []

/-- R18: the points that a frame has changed for terms, each with its value: the points its items name, then the
others ascending. -/
def changedPoints (before after : ImageBlock) (f : Frame) : List (Point × Bool) :=
  let named := firstAppearances (frameItems f)
  let order := named ++ (List.range 256).filter fun p => !named.contains p
  order.filterMap fun p =>
    if before.termVisible p = after.termVisible p then none else some (p, after.termVisible p)

/-- R18: changed points are handed to the evaluator as one source change each; the values of all of them stand before
the first of these is taken. -/
def handPoints (changes : List (Point × Bool)) : List HandOff :=
  if changes.isEmpty then []
  else .pointsApplied changes :: changes.map fun c => .source (.point c.1) c.2

/-- R18: the source changes after a frame. -/
def pointChanges (before after : ImageBlock) (f : Frame) : List HandOff := handPoints (changedPoints before after f)

/-- R20: the pulses handed to the counters, in item order. -/
def pulseHandOffs (f : Frame) : List HandOff :=
  (frameItems f).filterMap fun item =>
    match item with
    | .pulse p n => some (.pulse p n)
    | _ => none

/-- R19, R161: the record of one item, with the point's record as the item has left it. -/
def itemRecord (s : Station) (after : Image) (item : Item) : RecordBody :=
  match item with
  | .level p _ => ⟨.level, s, some p, some (pointValue after [] p), none⟩
  | .set p => ⟨.set, s, some p, some (after.heldRecord p).value, none⟩
  | .clear p => ⟨.clear, s, some p, some (after.heldRecord p).value, none⟩
  | .pulse p _ => ⟨.pulse, s, some p, some true, some (after.countRecord p).count⟩

/-- The records of a frame's items, each taken before the next item is applied (R19). -/
def itemRecords (s : Station) (m : Image) : List Item → List RecordBody
  | [] => []
  | item :: rest =>
    let after := applyItem s m item
    itemRecord s after item :: itemRecords s after rest

/-- R161: the records a committed frame gives, from the image before it. -/
def frameRecords (m : Image) (f : Frame) : List RecordBody :=
  match f with
  | .update s items => itemRecords s m items
  | .entry s _ items => ⟨.entry, s, none, none, none⟩ :: itemRecords s (withdrawStation s m) items
  | .join s _ _ => [⟨.join, s, none, none, none⟩]
  | .loss _ t => [⟨.loss, t, none, none, none⟩]
  | .release _ t => [⟨.release, t, none, none, none⟩]
  | .busy _ _ | .image _ _ _ _ | .rollcall _ _ | .svcReq _ _ _ _ | .svcRsp _ _ _ _ _ _ _ => []

/-- R22: at image completion one source change for each point that is ON, ascending. -/
def completionChanges (b : ImageBlock) : List HandOff :=
  handPoints (((List.range 256).filter fun p => b.termVisible p).map fun p => (p, true))

/-- R23: at the discard one source change for each point that was ON, ascending. -/
def discardChanges (b : ImageBlock) : List HandOff :=
  handPoints (((List.range 256).filter fun p => b.termVisible p).map fun p => (p, false))

/-- R2, R3: founding starts from the initial image. -/
def ImageBlock.founding : ImageBlock := { ImageBlock.reset with standing := .founding }

end Sys2Proof.Machine
end

