-- ==== Sys2Proof/Machine/RosterEntries.lean ====
section
/-! DEFINITION. The roster: acceptance by the sender's standing, the changes of entries at commits, silence timers
and entry deadlines, and the PEER source (R41, R78 to R93). -/

namespace Sys2Proof.Machine

/-- R41: whether a committed frame is accepted, by its sender's state before the commit. -/
def accepts (r : Roster) (f : Frame) : Bool :=
  match r.stateOf (frameSender f), f with
  | .active, _ => true
  | .joining, .join .. => true
  | .joining, .entry .. => true
  | .absent, .join .. => true
  | .lost, .join .. => true
  | _, _ => false

/-- R79, R80: a JOIN from the entry's station. -/
def RosterEntry.join (p : Nat) (e : RosterEntry) (timed : Bool) : RosterEntry :=
  { e with state := .joining, period := p, silence := none, deadline := if timed then some 0 else none }

/-- R79, R81: an accepted ENTRY from the entry's station. -/
def RosterEntry.enter (p : Nat) (e : RosterEntry) (timed : Bool) : RosterEntry :=
  { e with state := .active, period := p, silence := if timed then some 0 else none, deadline := none }

/-- R79, R82: a LOSS of the entry's station. -/
def RosterEntry.lose (e : RosterEntry) : RosterEntry :=
  match e.state with
  | .active | .joining => { e with state := .lost, silence := none, deadline := none }
  | .absent | .lost => e

/-- R79, R83: a RELEASE of the entry's station. -/
def RosterEntry.release (e : RosterEntry) : RosterEntry :=
  if e.state = .lost then { e with state := .absent, period := 0 } else e

/-- R79: the entries after an accepted frame. `own` is this station's number, whose timers never run;
`timed` is whether timers run (standing COMPLETE). -/
def rosterEffect (own : Station) (timed : Bool) (f : Frame) (r : Roster) : Roster :=
  match f with
  | .join s _ p => r.update s fun e => e.join p (timed && s ≠ own)
  | .entry s p _ => r.update s fun e => e.enter p (timed && s ≠ own)
  | .loss _ t => r.update t RosterEntry.lose
  | .release _ t => r.update t RosterEntry.release
  | .busy _ _ | .image _ _ _ _ | .update _ _ | .rollcall _ _ | .svcReq _ _ _ _ | .svcRsp _ _ _ _ _ _ _ => r

/-- R85: an accepted frame from an ACTIVE peer starts its silence timer from zero. -/
def breakSilence (own sender : Station) (r : Roster) : Roster :=
  if sender = own then r
  else r.update sender fun e => if e.state = .active then { e with silence := some 0 } else e

/-- R81: at this station's own ENTRY commit the silence timer of every other ACTIVE entry starts from zero. -/
def restartSilences (own : Station) (r : Roster) : Roster :=
  r.mapIdx fun i e => if e.state = .active && i + 1 ≠ own then { e with silence := some 0 } else e

/-- R92: after the replay the timers of every other ACTIVE and JOINING entry start from zero. -/
def startTimers (own : Station) (r : Roster) : Roster :=
  r.mapIdx fun i e =>
    if i + 1 = own then e
    else
      match e.state with
      | .active => { e with silence := some 0 }
      | .joining => { e with deadline := some 0 }
      | .absent | .lost => e

/-- R89: a declared P that differs from this station's own is a period mismatch of the frame's sender. -/
def periodMismatch? (ownPeriod : Nat) (own : Station) (f : Frame) : Option Station :=
  let declared := match f with
    | .join _ _ p => some p
    | .entry _ p _ => some p
    | .rollcall _ p => some p
    | _ => none
  match declared with
  | some p => if p ≠ ownPeriod && frameSender f ≠ own then some (frameSender f) else none
  | none => none

/-- R90: the PEER source changes between two live rosters, ascending station number. -/
def peerChanges (before after : Roster) : List HandOff :=
  allStations.filterMap fun s =>
    let was := decide (before.stateOf s = .active)
    let is := decide (after.stateOf s = .active)
    if was = is then none else some (.source (.peer s) is)

/-- R92, R93: one PEER source change for each ACTIVE entry, ascending. -/
def activePeers (r : Roster) (on : Bool) : List HandOff :=
  allStations.filterMap fun s => if r.stateOf s = .active then some (.source (.peer s) on) else none

/-- R112: the heard peers: other ACTIVE stations whose silence timer runs. -/
def heardPeers (own : Station) (r : Roster) : Nat :=
  (allStations.filter fun s => s ≠ own && r.stateOf s = .active && (r.entry s).silence.isSome).length

/-- R100: the lowest-numbered ACTIVE station. -/
def lowestActive? (r : Roster) : Option Station :=
  allStations.find? fun s => r.stateOf s = .active

/-- R101: the copy of the roster a snapshot holds. -/
def rosterCopy (r : Roster) : List (RosterState × Nat) := r.map fun e => (e.state, e.period)

/-- R92: the roster that part 0 gives. -/
def rosterOfPart (es : List (RosterState × Nat)) : Roster := es.map fun e => ⟨e.1, e.2, none, none⟩

/-- The mismatch report of a frame as a hand-off (R89). -/
def State.mismatchReport (s : State) (f : Frame) : List HandOff :=
  match periodMismatch? s.ownPeriod s.number f with
  | some t => [.report .periodMismatch (some (.station t)) s.lifecycle]
  | none => []

end Sys2Proof.Machine
end

