-- ==== Sys2Proof/Machine/Departures.lean ====
section
/-! DEFINITION. Resets, RESTART, detach, LINK-FAULT, CONFIG-FAULT and the entry into LISTEN: the events at which
every block takes its reset or departure treatment (R23, R63, R64, R93, R95, R96, R113 to R115, R155, R160, R164,
R176, R177, R181, R183). -/

namespace Sys2Proof.Machine

/-- Every block at its reset value; the pins keep their levels and the queue is not part of the station. -/
def State.resetBlocks (s : State) : State :=
  { State.reset with
    pending := s.pending
    loader := { Loader.reset with straps := s.loader.straps }
    field := s.field.afterReset
    freeIndex := s.freeIndex }

/-- R181: the station goes to CONFIG-FAULT and holds no configuration. -/
def State.toConfigFault (s : State) : State :=
  { s with lifecycle := .configFault, loader := { s.loader with config := none, phase := .none } }

/-- R177: the straps are read; a number from 1 to 30 is the station number, any other value a STATION-STRAP. -/
def State.readStraps (s : State) : State :=
  let n := s.loader.straps.toNat
  if isStation n then { s with loader := { s.loader with number := n, held := false, phase := .header } }
  else
    let s := { s with loader := { s.loader with held := false, phase := .none } }
    (s.report .stationStrap none).toConfigFault

/-- R177, R183: RESTART. The fault record, the counts, a FROZEN ring and the capture indices survive; the straps are
read as the restart finds them, which the manual leaves open (log 9). DESIGN CHOICE: where the record survives,
OWN-FAULT is OFF at the evaluator from the restart to the handover, as R133 gives every source, and takes the FAULT
line at the handover (`Evaluator.atHandover`); R160 and R183 have it ON as a reset value without a moment (log 39). -/
def State.performRestart (s : State) : State :=
  let fault := s.fault.afterRestart
  State.readStraps
    { s.resetBlocks with
      timeBase := s.timeBase
      fault := fault
      capture := s.capture.afterRestart
      asm := { Assembler.reset with faultPart := fault.line }
      loader := { Loader.reset with straps := Config.strapLevels s.freeIndex }
      freeIndex := s.freeIndex + 1 }

/-- The hand-offs whose effect outlives a RESTART: the fault reports (R183). A frame at whose commit the station
restarts gives no capture records. -/
def HandOff.outlives : HandOff → Bool
  | .report _ _ _ => true
  | .pointsApplied _ | .source _ _ | .lifecycleToEvaluator | .lifecycleToField | .pulse _ _ | .group _ => false

/-- R183: RESTART in the middle of a command. What the command has handed on may be taken before it; its reports
are taken before it in any case. -/
def State.restartAfter (s : State) : State :=
  let s := s.someTasks
  let s := { s with agenda := s.agenda.filter HandOff.outlives, echoes := [] }
  (runTasks s.agenda.length s).performRestart

/-- R96: entry into LISTEN with the given attempt count. The idle count starts from zero (R46). DESIGN CHOICE: at a
return from LISTEN to LISTEN the record of a frame in reception stays, so that the frame may still be observed as
committed; R46 has a station that comes up see the frame then on the medium as activity without a start, and R47 names
no discard at a return (log 38). -/
def State.enterListen (s : State) (attempts : Nat) : State :=
  { s with
    lifecycle := .listen
    commit := { s.commit with idle := 0 }
    image := ImageBlock.reset
    roster := Roster.initial
    join := { JoinController.reset with attempts := attempts, listenTimer := some 0 } }

/-- R113, R115: every block takes its detach treatment, and the lifecycle becomes `next`. -/
def State.leaveLink (s : State) (next : Lifecycle) (holdoff : Option Nat) : State :=
  let points := discardChanges s.image
  let peers := if s.image.standing = .complete then activePeers s.roster false else []
  State.post
    { s with
      lifecycle := next
      commit := CommitUnit.reset
      image := ImageBlock.reset
      roster := Roster.initial
      join := { JoinController.reset with attempts := s.join.attempts, holdoff := holdoff }
      asm := s.asm.detach
      service := ServiceUnit.reset }
    (points ++ peers ++ [.lifecycleToEvaluator, .lifecycleToField])

/-- R174: a RESTART session is open. -/
def ServiceUnit.restartOpen (v : ServiceUnit) : Bool :=
  match v.session with
  | some ss => ss.request = .restart
  | none => false

/-- R113: a detach with its cause. The report is made before the lifecycle changes (R156); what the event before it has
handed on may be taken before or after either. With a RESTART session open the station restarts in place of the rejoin
holdoff (R174, R183): every block takes the detach whole first (R113), the evaluator the source changes of R23 and R93
and the lifecycle change of R126 among them; what those hand on in turn may be taken before the restart or not (log
33). -/
def State.detach (s : State) (cause : Option FaultKind) : State :=
  let s := match cause with
    | some k => s.someTasks.report k none
    | none => s
  if s.service.restartOpen then
    let left := s.someTasks.leaveLink .detached none
    (runTasks left.agenda.length left).someEchoes.performRestart
  else s.someTasks.leaveLink .detached (some 0)

/-- R115: entry into LINK-FAULT with its fault. -/
def State.toLinkFault (s : State) (cause : FaultKind) : State :=
  ((s.report cause none).someTasks).leaveLink .linkFault none

/-- R95: a return to LISTEN; the fourth leads to LINK-FAULT. -/
def State.returnToListen (s : State) : State :=
  if s.join.attempts < 3 then s.enterListen (s.join.attempts + 1) else s.toLinkFault .attemptsExhausted

end Sys2Proof.Machine
end

