-- ==== Sys2Proof/Machine/ServiceUnit.lean ====
section
/-! DEFINITION. The service unit: the session, the BUSY list, the response slot and the payloads (R165 to R175). -/

namespace Sys2Proof.Machine

/-! ### Withdrawals (R74, R169) -/

/-- Mark the frame in flight withdrawn where it carries one of the given claims. -/
def State.withdrawFlight (s : State) (claims : Origin → Bool) : State :=
  match s.commit.flight with
  | some fl =>
    if claims fl.origin then { s with commit := { s.commit with flight := some { fl with withdrawn := true } } } else s
  | none => s

/-- Whether the claim came from the response slot. -/
def Origin.isResponse : Origin → Bool
  | .busyAnswer _ | .sessionPart _ => true
  | _ => false

/-- The frame in the response slot is withdrawn. -/
def State.withdrawResponse (s : State) : State :=
  let s := if s.asm.responseSlot.isSome then s.withdrawFlight Origin.isResponse else s
  { s with asm := { s.asm with responseSlot := none } }

/-- The RELEASE in the release slot is withdrawn. -/
def State.withdrawRelease (s : State) : State :=
  let s := if s.asm.releaseSlot.isSome then s.withdrawFlight (fun o => o = .release) else s
  { s with asm := { s.asm with releaseSlot := none } }

/-- R168: whenever the slot is empty the next response is handed in: the oldest BUSY answer, else the
session's next part. -/
def State.handResponse (s : State) : State :=
  if s.asm.responseSlot.isSome then s
  else
    match s.service.busyList, s.service.session with
    | (r, _) :: _, _ => { s with asm := { s.asm with responseSlot := some (.busyAnswer r) } }
    | [], some ss => if ss.releasing then s else { s with asm := { s.asm with responseSlot := some .sessionPart } }
    | [], none => s

/-- R169: the open session is abandoned. -/
def State.abandonSession (s : State) : State :=
  let s := { s with service := { s.service with session := none } }
  let s := if s.asm.responseSlot = some .sessionPart then s.withdrawResponse else s
  s.withdrawRelease.handResponse

/-- R169: the open session of a requester that has left ACTIVE; a RESTART goes on (R174). -/
def State.abandonSessionOf (s : State) (t : Station) : State :=
  match s.service.session with
  | some ss => if ss.requester = t ∧ ss.request ≠ Request.restart then s.abandonSession else s
  | none => s

/-- R169: a requester has left ACTIVE in this station's roster. -/
def State.requesterLeft (s : State) (t : Station) : State :=
  let s := s.abandonSessionOf t
  let s := { s with service := { s.service with busyList := eraseEntry t s.service.busyList } }
  let s := if s.asm.responseSlot = some (.busyAnswer t) then s.withdrawResponse else s
  s.handResponse

/-! ### Taking a request (R165 to R167, R170 to R174) -/

/-- R170 to R174: the part count of a request. -/
def requestParts : Request → Nat
  | .readRoster => 2
  | .readLocal => 3
  | .readCapture _ count => 1 + (count + 2) / 3
  | .readPoint _ | .readFault | .clearFault _ | .armCapture | .releaseStation _ | .restart => 1

/-- R172: CLEAR-FAULT at its acceptance (R159). DESIGN CHOICE, unsafe: the clear, the field line unit's clearing and its
hand-off of the empty set back to the fault unit are taken back to back in this command, so no other event's report
comes between the clear and that hand-off; R159 lets one come there, and the FAULT line then does not fall (log 40). -/
def State.clearFaults (s : State) (counts : Bool) : State := (s.clearRecord counts).clearOutputFaults

/-- R166: a session opens and the request's action is carried out. -/
def State.openSession (s : State) (requester : Station) (tag : Byte) (request : Request) : State :=
  let ss : Session := ⟨requester, tag, request, requestParts request, 1, false, .done⟩
  let put := fun (s : State) (ss : Session) => { s with service := { s.service with session := some ss } }
  State.handResponse <|
    match request with
    | .clearFault counts => put (s.clearFaults counts) ss
    | .armCapture => put { s with capture := s.capture.arm } ss
    | .releaseStation t =>
      if s.roster.stateOf t = .lost then
        put { s with asm := { s.asm with releaseSlot := some t } } { ss with releasing := true }
      else put s { ss with answer := .refused }
    | .readPoint _ | .readRoster | .readLocal | .readFault | .readCapture _ _ | .restart => put s ss

/-- R167: a requester is owed a BUSY answer; an entry it has keeps its place and takes the new tag. -/
def oweBusy (l : List (Station × Byte)) (requester : Station) (tag : Byte) : List (Station × Byte) :=
  if l.any (fun e => e.1 = requester) then l.map fun e => if e.1 = requester then (requester, tag) else e
  else l ++ [(requester, tag)]

/-- R166: a request taken by R165. -/
def State.takeServiceRequest (s : State) (requester : Station) (tag : Byte) (request : Request) : State :=
  match s.service.session with
  | none => s.openSession requester tag request
  | some _ =>
    if request = .restart then (s.abandonSession).openSession requester tag request
    else
      State.handResponse
        { s with service := { s.service with busyList := oweBusy s.service.busyList requester tag } }

/-! ### Payloads (R175) -/

/-- Bits of a list as a number, the first bit most significant. -/
def packHigh (bits : List Bool) : Nat := bits.foldl (fun acc b => 2 * acc + b.toNat) 0

/-- READ-POINT (R170, R175). Bits 5 to 1 of the first byte and bit 2 of each all-class entry have no stated content
(log 6). -/
def pointPayload (s : State) (p : Point) : List Byte :=
  let m := s.image.points
  let head := fun (cls : PointClass) =>
    fillUnstated (BitVec.ofNat 8 (cls.code * 64 + (s.image.termVisible p).toNat)) 0x3E#8 (Config.unstated s.freeIndex 0)
  match pointClass? p with
  | some .any => head .any :: bigEndian 4 (packHigh (membershipBits (m.onSet p)) * 4)
  | some .all =>
    let c := m.contributors p
    head .all :: BitVec.ofNat 8 c.length :: c.zipIdx.map fun (e, i) =>
      fillUnstated (BitVec.ofNat 8 (e.1 * 8 + entryCode e.2)) 0x04#8 (Config.unstated s.freeIndex (i + 1))
  | some .held =>
    let r := m.heldRecord p
    [head .held, BitVec.ofNat 8 (r.changer.getD 0), r.changes]
  | some .count =>
    let r := m.countRecord p
    head .count :: (bigEndian 2 r.count.toNat ++ [BitVec.ofNat 8 (r.pulser.getD 0)])
  | none => []

/-- READ-ROSTER, part k of 2 (R170, R175). -/
def rosterPayload (s : State) (k : Nat) : List Byte :=
  (List.range 15).flatMap fun i =>
    let e := s.roster.entry (15 * (k - 1) + i + 1)
    [BitVec.ofNat 8 (rosterCode e.state), BitVec.ofNat 8 e.period]

/-- The two bytes of twelve output levels; the four bits above them have no stated content (log 6). -/
def outputBytes (s : State) (place : Nat) (levels : List Bool) : List Byte :=
  match bigEndian 2 (packLow levels) with
  | [hi, lo] => [fillUnstated hi 0xF0#8 (Config.unstated s.freeIndex place), lo]
  | other => other

/-- READ-LOCAL, part k of 3 (R170, R175). -/
def localPayload (s : State) (k : Nat) : List Byte :=
  if k = 1 then
    bigEndian 2 (packLow (s.field.inputs.map (·.filtered)))
      ++ outputBytes s 0 (s.field.outputs.map (·.commanded))
      ++ outputBytes s 1 (s.field.outputs.map (·.driven))
      ++ outputBytes s 2 (s.field.outputs.map (·.readback))
      ++ outputBytes s 3 (s.field.outputs.map fun o => o.phase = .latched)
      ++ bigEndian 4 (packLow s.eval.src.markers)
      ++ bigEndian 3 ((s.eval.gates.foldl (fun acc g => 4 * acc + g.code) 0) * 64)
  else if k = 2 then s.timers.timers.flatMap fun t => bigEndian 2 (t.done.toNat * 32768 + t.value)
  else (s.timers.counters.flatMap fun c => bigEndian 2 c.value)
    ++ [BitVec.ofNat 8 (packLow (s.timers.counters.map (·.done)))]

/-- The two subject bytes of READ-FAULT. Byte 1 is 0 for every kind but CONFIG-INVALID, which always has a subject; the
number in byte 2 has no stated content where the subject is absent (log 6). -/
def subjectBytes (s : State) : Option Subject → List Byte
  | some (.config code entry) => [BitVec.ofNat 8 code, BitVec.ofNat 8 entry]
  | some (.station t) => [0, BitVec.ofNat 8 t]
  | some (.output n) => [0, BitVec.ofNat 8 n]
  | some (.point p) => [0, BitVec.ofNat 8 p]
  | none => [0, (Config.unstated s.freeIndex 1).setWidth 8]

/-- READ-FAULT (R170, R175). -/
def faultPayload (s : State) : List Byte :=
  (match s.fault.record with
    | some r =>
      fillUnstated (BitVec.ofNat 8 (128 + r.subject.isSome.toNat * 64 + r.kind.code)) 0x30#8 (Config.unstated s.freeIndex 0)
        :: (subjectBytes s r.subject ++ bigEndian 2 r.stamp.toNat ++ [BitVec.ofNat 8 r.lifecycle.code])
    | none => [0, 0, 0, 0, 0, 0]) ++ s.fault.counts.map fun n => BitVec.ofNat 8 n

/-- READ-CAPTURE, part 1 (R171, R175). -/
def captureStatusPayload (s : State) : List Byte :=
  let c := s.capture
  let oldest := match c.ring with
    | r :: _ => r.index
    | [] => c.nextIndex
  fillUnstated (BitVec.ofNat 8 (c.triggerIndex.isSome.toNat * 128 + c.mode.code)) 0x7C#8 (Config.unstated s.freeIndex 0)
    :: BitVec.ofNat 8 c.remaining
    :: (bigEndian 2 (c.triggerIndex.getD (Config.unstated s.freeIndex 1)).toNat
      ++ bigEndian 2 oldest.toNat ++ [BitVec.ofNat 8 c.ring.length] ++ bigEndian 2 c.nextIndex.toNat)

/-- One record of READ-CAPTURE: ten bytes (R175). -/
def recordBytes (s : State) (place : Nat) (r : CaptureRecord) : List Byte :=
  let b := r.body
  let present := b.point.isSome && b.value.isSome
  let flags := BitVec.ofNat 8 (present.toNat * 128 + b.count.isSome.toNat * 64 + (b.value.getD false).toNat)
  bigEndian 2 r.index.toNat ++ [r.ordinal] ++ bigEndian 2 r.stamp.toNat
    ++ [BitVec.ofNat 8 (b.kind.code * 32 + b.station), BitVec.ofNat 8 (b.point.getD 0),
      fillUnstated flags (if b.value.isSome then 0x3E#8 else 0x3F#8) (Config.unstated s.freeIndex place)]
    ++ bigEndian 2 (b.count.getD 0).toNat

/-- R171: the indices that part k of a READ-CAPTURE covers. -/
def coveredIndices (first : Word16) (count k : Nat) : List Word16 :=
  ((List.range 3).map (fun i => 3 * (k - 2) + i)).filter (· < count) |>.map fun i => first + BitVec.ofNat 16 i

/-- R171: the record held with an index. -/
def CaptureUnit.held? (c : CaptureUnit) (i : Word16) : Option CaptureRecord := c.ring.find? fun r => r.index = i

/-- R171: an index that is the next one or one of the 47 that follow it. -/
def CaptureUnit.unmade (c : CaptureUnit) (i : Word16) : Bool := (i - c.nextIndex).toNat < Config.ringCapacity

/-- R171: an index that has been given to a record the ring no longer holds. -/
def CaptureUnit.gone (c : CaptureUnit) (i : Word16) : Bool := (c.held? i).isNone && !c.unmade i

/-- READ-CAPTURE, a record part (R171). -/
def capturePart (s : State) (first : Word16) (count k : Nat) : Status × List Byte :=
  let covered := coveredIndices first count k
  if covered.any s.capture.gone then (.gone, [])
  else (.done, (covered.filterMap s.capture.held?).zipIdx.flatMap fun (r, i) => recordBytes s i r)

/-- R168, R170 to R175: status and payload of the session's part k, built from the state at its start. -/
def responsePart (s : State) (ss : Session) (k : Nat) : Status × List Byte :=
  match ss.request with
  | .readPoint p => (.done, pointPayload s p.toNat)
  | .readRoster => (.done, rosterPayload s k)
  | .readLocal => (.done, localPayload s k)
  | .readFault => (.done, faultPayload s)
  | .readCapture first count => if k = 1 then (.done, captureStatusPayload s) else capturePart s first count k
  | .clearFault _ | .armCapture | .releaseStation _ | .restart => (ss.answer, [])

/-- The SVC-RSP the response slot calls for, with the claim it carries. -/
def responseFrame? (s : State) : Option (Frame × Origin) :=
  match s.asm.responseSlot with
  | none => none
  | some (.busyAnswer r) =>
    match entryOf? r s.service.busyList with
    | some tag => some (.svcRsp s.number r tag .busy 1 1 [], .busyAnswer r)
    | none => none
  | some .sessionPart =>
    match s.service.session with
    | some ss =>
      let (status, payload) := responsePart s ss ss.next
      some (.svcRsp s.number ss.requester ss.tag status ss.next ss.parts payload,
        .sessionPart (ss.request = .restart))
    | none => none

/-! ### Outcomes of the unit's frames (R168, R173, R174) -/

/-- R173: the RELEASE of a releasing session has committed; `wasLost` is the target's standing before it. -/
def State.releaseCommitted (s : State) (wasLost : Bool) : State :=
  match s.service.session with
  | some ss =>
    if ss.releasing then
      State.handResponse
        { s with service := { s.service with
          session := some { ss with releasing := false, answer := if wasLost then .done else .refused } } }
    else s
  | none => s

/-- R168: a session part has committed: the next part, or the session closes. -/
def State.partCommitted (s : State) : State :=
  match s.service.session with
  | some ss =>
    let next := if ss.next < ss.parts then some { ss with next := ss.next + 1 } else none
    State.handResponse { s with service := { s.service with session := next } }
  | none => s.handResponse

/-- R167: a BUSY answer has committed. -/
def State.busyAnswered (s : State) (r : Station) : State :=
  State.handResponse { s with service := { s.service with busyList := eraseEntry r s.service.busyList } }

end Sys2Proof.Machine
end

