-- ==== Sys2Proof/Machine/Joining.lean ====
section
/-! DEFINITION. The join controller: listening, founding, the respondent, the joiner, image completion and the
stray-frame watch (R94 to R112). -/

namespace Sys2Proof.Machine

/-! ### Listening and founding (R96 to R99) -/

/-- R55, R96: a report of activity on the medium sets the activity mark while the listen period runs. -/
def State.noteActivity (s : State) : State :=
  if s.lifecycle = .listen && s.join.listenTimer.isSome then { s with join := { s.join with activity := true } } else s

/-- R96: the kinds whose sender becomes a candidate. -/
def namesCandidate : Frame → Bool
  | .rollcall .. | .update .. | .entry .. => true
  | _ => false

/-- R96: an observed commit during the listen period. -/
def State.noteCandidate (s : State) (f : Frame) : State :=
  if s.join.listenTimer.isSome && namesCandidate f then
    { s with join := { s.join with candidates := insertStation (frameSender f) s.join.candidates } }
  else s

/-- R97, R104: a JOIN naming a station (0 for ANY) is handed into the join slot. -/
def State.handJoin (s : State) (respondent : Station) : State :=
  { s with
    join := { s.join with choice := respondent }
    asm := { s.asm with joinSlot := some .join } }

/-- R98: the station founds. -/
def State.found (s : State) : State :=
  State.handJoin
    { s with
      image := ImageBlock.founding
      roster := Roster.initial
      join := { s.join with spoiled := false } } 0

/-- R97: the decision at the end of the listen period. -/
def State.endListening (s : State) : State :=
  let s := { s with join := { s.join with listenTimer := none } }
  match s.join.candidates with
  | c :: _ => s.handJoin c
  | [] => if s.join.activity then s.returnToListen else s.found

/-- R99: an ignored frame that spoils a founding image. -/
def spoils (r : Roster) (f : Frame) : Bool :=
  !isJoin f && !accepts r f && (r.stateOf (frameSender f) = .absent || r.stateOf (frameSender f) = .lost)

/-- R21, R91, R99: a commit is applied to the founding image and roster. -/
def State.applyFounding (s : State) (f : Frame) : State :=
  if accepts s.roster f then
    State.post
      { s with
        image := { s.image with points := frameEffect s.roster f s.image.points }
        roster := rosterEffect s.number false f s.roster }
      (s.mismatchReport f)
  else if spoils s.roster f then { s with join := { s.join with spoiled := true } }
  else s

/-! ### The respondent (R100 to R102, R106) -/

/-- R102: the snapshot is dropped and an unsent part withdrawn. -/
def State.dropSnapshot (s : State) : State :=
  let s := if s.asm.partSlot then s.withdrawFlight (fun o => o = .part) else s
  { s with
    join := { s.join with snapshot := none }
    asm := { s.asm with partSlot := false } }

/-- R102: the snapshot is dropped if it is for station `j`. -/
def State.dropSnapshotFor (s : State) (j : Station) : State :=
  match s.join.snapshot with
  | some sn => if sn.joiner = j then s.dropSnapshot else s
  | none => s

/-- R102, R106: a BUSY owed to station `j` is withdrawn. -/
def State.withdrawBusy (s : State) (j : Station) : State :=
  let s := if s.asm.busySet.contains j then s.withdrawFlight (fun o => o = .busy j) else s
  { s with asm := { s.asm with busySet := eraseStation j s.asm.busySet } }

/-- R24, R101: a snapshot for `j` is taken after the JOIN's effects, and part 0 is handed in. -/
def State.takeSnapshot (s : State) (j : Station) : State :=
  { s with
    join := { s.join with snapshot := some ⟨j, rosterCopy s.roster, s.image.points, 0⟩ }
    asm := { s.asm with partSlot := true } }

/-- R100: the respondent of a JOIN, by the roster after its effects. -/
def respondentOf (r : Roster) (named : Station) : Option Station :=
  if named = 0 then lowestActive? r else some named

/-- R100, R106: an ACTIVE station at the commit of a JOIN from `j`. -/
def State.respondToJoin (s : State) (j named : Station) : State :=
  let s := (s.dropSnapshotFor j).withdrawBusy j
  if respondentOf s.roster named = some s.number then
    if s.join.snapshot.isNone then s.takeSnapshot j
    else { s with asm := { s.asm with busySet := insertStation j s.asm.busySet } }
  else s

/-- R35, R101: the body of part k, built from the snapshot. -/
def snapshotPart (sn : Snapshot) (k : Nat) : PartBody :=
  let from8 := fun (base : Nat) => 8 * (k - 1) - base
  match partShape? k with
  | some .roster => .roster sn.roster
  | some .any => .any ((sn.points.any.drop (from8 0)).take 8)
  | some .all => .all ((sn.points.all.drop (from8 128)).take 8)
  | some .held => .held ((sn.points.held.drop (from8 176)).take 8)
  | some .count => .count ((sn.points.count.drop (from8 224)).take 8)
  | none => .roster []

/-- R101: a part of the snapshot has committed. -/
def State.partSent (s : State) : State :=
  match s.join.snapshot with
  | some sn =>
    if sn.next < 32 then
      { s with
        join := { s.join with snapshot := some { sn with next := sn.next + 1 } }
        asm := { s.asm with partSlot := true } }
    else
      { s with
        join := { s.join with snapshot := none }
        asm := { s.asm with partSlot := false } }
  | none => { s with asm := { s.asm with partSlot := false } }

/-! ### The joiner (R103 to R106) -/

/-- R103: the commit of this station's own JOIN. -/
def State.becomeJoining (s : State) (respondent : Station) : State :=
  { s with
    lifecycle := .joining
    commit := { s.commit with vetoes := 0 }
    image := if s.image.standing = .founding then { s.image with standing := .frozen } else s.image
    join := { s.join with
      listenTimer := none
      respondent := if respondent = 0 then none else some respondent
      parts := []
      backlog := []
      answerTimer := some 0
      gapTimer := none
      awaiting := false } }

/-- R21: the founding image is given up. -/
def State.giveUpFounding (s : State) : State :=
  { s with
    image := ImageBlock.reset
    roster := Roster.initial
    join := { s.join with spoiled := false } }

/-- R104: the lowest candidate above the respondent of record. -/
def nextCandidate? (j : JoinController) : Option Station :=
  match j.respondent with
  | some r => j.candidates.find? fun c => r < c
  | none => none

/-- R104: the joiner moves to its next candidate, or its join fails. -/
def State.nextCandidate (s : State) : State :=
  match nextCandidate? s.join with
  | some c =>
    State.handJoin
      { s with join := { s.join with
        parts := []
        backlog := []
        answerTimer := none
        gapTimer := none
        awaiting := true } } c
  | none => s.detach none

/-- R105: a committed frame joins the backlog, or overflows it. -/
def State.keepInBacklog (s : State) (f : Frame) : State :=
  if Config.backlogCapacity ≤ s.join.backlog.length then s.detach none
  else { s with join := { s.join with backlog := s.join.backlog ++ [f] } }

/-! ### Image completion (R22, R92, R107, R108) -/

/-- The image, the roster and the reports while a backlog is replayed. -/
structure Replay where
  points  : Image
  roster  : Roster
  /-- Frames whose declared P differs from this station's own (R89), in replay order. -/
  reports : List Frame
  spoiled : Bool

/-- R42, R92, R99: one backlogged frame; a frame ignored on a founding base may spoil it, and the replay
ends there (log 19). -/
def replayFrame (own : Station) (founding : Bool) (r : Replay) (f : Frame) : Replay :=
  if r.spoiled then r
  else if accepts r.roster f then
    { points := frameEffect r.roster f r.points
      roster := rosterEffect own false f r.roster
      reports := r.reports ++ [f]
      spoiled := false }
  else if founding && spoils r.roster f then { r with spoiled := true }
  else r

/-- R108, step 2: the whole backlog. -/
def replayBacklog (own : Station) (founding : Bool) (points : Image) (roster : Roster) (backlog : List Frame) : Replay :=
  backlog.foldl (replayFrame own founding) ⟨points, roster, [], false⟩

/-- R108, steps 3 to 5: the replayed image and roster become live. DESIGN CHOICE: the evaluator's events at the
completion are all taken with the standing COMPLETE, so that each of them finds G0 in PREVIEW, as R123 derives it from
the standing as it stands. The worked sequence of 07_terms_and_gates.md has a point change that is taken before the
standing event find G0 still CLOSED; both end with the same values (log 34). -/
def State.completeFrom (s : State) (r : Replay) : State :=
  let image : ImageBlock := ⟨.complete, r.points, List.replicate 32 none⟩
  let roster := startTimers s.number r.roster
  State.post
    { s with
      image := image
      roster := roster
      join := { s.join with
        respondent := none
        parts := []
        backlog := []
        answerTimer := none
        gapTimer := none
        awaiting := false
        spoiled := false
        stray := [] }
      asm := { s.asm with joinSlot := some .entry } }
    (r.reports.flatMap s.mismatchReport ++ completionChanges image ++ activePeers roster true
      ++ [.lifecycleToEvaluator])

/-- R22: the image that parts 1 to 32 give. -/
def imageOfParts (parts : List PartBody) : Image where
  any := parts.flatMap fun b => match b with
    | .any xs => xs
    | _ => []
  all := parts.flatMap fun b => match b with
    | .all xs => xs
    | _ => []
  held := parts.flatMap fun b => match b with
    | .held xs => xs
    | _ => []
  count := parts.flatMap fun b => match b with
    | .count xs => xs
    | _ => []

/-- R92: the roster that part 0 gives. -/
def rosterOfParts : List PartBody → Roster
  | .roster es :: _ => rosterOfPart es
  | _ => Roster.initial

/-- R108: completion from the 33 collected parts. -/
def State.completeFromParts (s : State) : State :=
  s.completeFrom
    (replayBacklog s.number false (imageOfParts s.join.parts) (rosterOfParts s.join.parts) s.join.backlog)

/-- R107: completion from the FROZEN founding image; a spoiled one is given up and the join fails. -/
def State.completeFromFounding (s : State) : State :=
  if s.join.spoiled then s.giveUpFounding.detach none
  else
    let r := replayBacklog s.number true s.image.points s.roster s.join.backlog
    if r.spoiled then
      ((s.post (r.reports.flatMap s.mismatchReport)).giveUpFounding).detach none
    else s.completeFrom r

/-- R103: whether the joiner takes an IMAGE frame addressed to it. -/
def takesPart (j : JoinController) (sender : Station) (k : Nat) : Bool :=
  !j.awaiting && k = j.parts.length &&
    match j.respondent with
    | some r => r = sender
    | none => k = 0

/-- R103: an IMAGE frame addressed to a joiner whose image is not complete. -/
def State.takePart (s : State) (sender : Station) (k : Nat) (body : PartBody) : State :=
  if !takesPart s.join sender k then s
  else
    let s := if s.image.standing = .frozen then
        { s.giveUpFounding with join := { s.giveUpFounding.join with candidates := [] } } else s
    let s := { s with join := { s.join with
      respondent := some sender
      parts := s.join.parts ++ [body]
      answerTimer := none
      gapTimer := some 0 } }
    if k = 32 then s.completeFromParts else s

/-- R104: a BUSY addressed to a joiner whose image is not complete. -/
def State.takeBusy (s : State) (sender : Station) : State :=
  let heeded := match s.join.respondent with
    | some r => r = sender
    | none => true
  if heeded && !s.join.awaiting then s.nextCandidate else s

/-! ### Out of step with the link (R111, R112) -/

/-- R112: the stray set is larger than the heard peers. -/
def State.outnumbered (s : State) : Bool := heardPeers s.number s.roster < s.join.stray.length

/-- R111: an ignored frame of an ABSENT or LOST sender; where the set gains a member, R112 decides. -/
def State.noteStray (s : State) (t : Station) : State :=
  let gained := (entryOf? t s.join.stray).isNone
  let s := { s with join := { s.join with stray := putEntry t 0 s.join.stray } }
  if gained && s.outnumbered then s.detach (some .namedLost) else s

end Sys2Proof.Machine
end

