-- ==== Sys2Proof/Machine/ConfigBlock.lean ====
section
/-! DEFINITION. The configuration block: its layout, the read checks of its bytes and the checks of its content
(R178 to R180). -/

namespace Sys2Proof.Machine

/-- The bytes of a configuration block, from address 0 (R179). -/
abbrev Block := List Byte

/-- One byte of the block as a number. -/
def Block.at (b : Block) (offset : Nat) : Nat := (b.getD offset 0).toNat

/-- A two-byte number, most significant byte first (R179). -/
def Block.word (b : Block) (offset : Nat) : Nat := 256 * b.at offset + b.at (offset + 1)

/-- A check that failed: its code and the entry it names (R178, R180). -/
structure LoadFailure where
  code  : Nat
  entry : Nat
  deriving DecidableEq, Repr

/-! ### The read checks (R178) -/

/-- R178: the block length lies within 168 to 872 bytes. -/
def lengthInRange (n : Nat) : Bool := decide (168 ≤ n ∧ n ≤ 872)

/-- R178: the sum of each byte times its address plus one, modulo 2^32. -/
def checkSum (bytes : List Byte) : Nat :=
  ((bytes.zipIdx.map fun (x, i) => x.toNat * (i + 1)).sum) % 2 ^ 32

/-- R178: the check word agrees with the bytes before it. -/
def checkWordOk (b : Block) : Bool :=
  let stop := b.length - 4
  decide (65536 * b.word stop + b.word (stop + 2) = checkSum (b.take stop))

/-- R178: the terms walked by their literal counts: the offset of each, or the entry of the failure (log 11). -/
def walkTerms (b : Block) (stop : Nat) : Nat → Nat → Nat → Except Nat (List Nat)
  | 0, _, offset => if offset = stop then .ok [] else .error 63
  | n + 1, t, offset =>
    if stop < offset + 3 then .error 63
    else
      let literals := b.at (offset + 2) % 8
      if literals < 1 ∨ 4 < literals then .error (64 + t)
      else
        match walkTerms b stop n (t + 1) (offset + 3 + 2 * literals) with
        | .ok rest => .ok (offset :: rest)
        | .error e => .error e

/-- R178: the term count and the walk: where each term stands. -/
def termOffsets (b : Block) : Except Nat (List Nat) :=
  if 64 < b.at 163 then .error 63 else walkTerms b (b.length - 4) (b.at 163) 0 164

/-! ### The fields of the block (R179) -/

/-- The source a literal field names, by kind and index; kind 0 names none. -/
def sourceOf? (kind index : Nat) : Option Source :=
  match kind with
  | 1 => some (.input index)
  | 2 => some (.marker index)
  | 3 => some (.point index)
  | 4 => some (.timer index)
  | 5 => some (.counter index)
  | 6 => some (.peer index)
  | 7 => some .ownActive
  | 8 => some .ownFault
  | _ => none

/-- A literal field. -/
def literalAt (b : Block) (offset : Nat) : Option Literal :=
  (sourceOf? (b.at offset % 16) (b.at (offset + 1))).map fun src => ⟨decide (128 ≤ b.at offset), src⟩

/-- The target of a kind in the order of R118's table, with its index. -/
def targetOf (kind index : Nat) : Target :=
  match kind with
  | 0 => .marker index
  | 1 => .output index
  | 2 => .contribute index
  | 3 => .timerCoil index
  | 4 => .timerReset index
  | 5 => .countReset index
  | 6 => .set index
  | 7 => .clear index
  | 8 => .pulse index
  | _ => .count index

/-- The term whose first byte stands at `offset`. -/
def termAt (b : Block) (offset : Nat) : Term where
  literals := (List.range (b.at (offset + 2) % 8)).filterMap fun i => literalAt b (offset + 3 + 2 * i)
  gate := b.at (offset + 2) / 16
  target := targetOf (b.at offset) (b.at (offset + 1))

/-- R135, R179: the time base of a timer in milliseconds. -/
def baseOf (code : Nat) : Nat := if code = 0 then 1 else if code = 1 then 10 else 100

/-- The configuration that a block holds, its terms standing at the given offsets (R179). -/
def setupOf (b : Block) (offsets : List Nat) : StationSetup where
  bitRate := match b.at 3 with
    | 0 => .k125
    | 1 => .k250
    | 2 => .k500
    | _ => .k1000
  period := b.at 4
  pacingGap := b.at 5
  filters := (List.range 16).map fun n => b.at (6 + n)
  outputs := (List.range 12).map fun n =>
    ⟨b.at (22 + 2 * n), (b.at (23 + 2 * n)).testBit 0, (b.at (23 + 2 * n)).testBit 1⟩
  gates := (List.range 8).map fun n =>
    ⟨literalAt b (46 + 4 * n), b.at (48 + 4 * n), if b.at (49 + 4 * n) = 0 then .quiet else .fire⟩
  timers := (List.range 16).map fun n =>
    let head := b.at (78 + 3 * n)
    ⟨if head / 64 = 0 then .delayOn else if head / 64 = 1 then .delayOnHeld else .delayOff,
      baseOf (head / 16 % 4), b.word (79 + 3 * n), head % 16⟩
  counters := (List.range 8).map fun n =>
    ⟨b.word (126 + 4 * n), b.at (128 + 4 * n),
      if b.at (129 + 4 * n) = 0 then none else some (b.at (129 + 4 * n))⟩
  capture := ⟨literalAt b 158, (b.at 160).testBit 0, (b.at 160).testBit 1, b.at 161⟩
  faultPoint := if 128 ≤ b.at 162 then some (b.at 162 % 128) else none
  terms := offsets.map (termAt b)

/-! ### RANGE (code 5) -/

/-- R179, R180: the index range of a source kind. -/
def indexInRange (kind index : Nat) : Bool :=
  match kind with
  | 1 | 4 => decide (index < 16)
  | 2 => decide (index < 32)
  | 3 => decide (index < 256)
  | 5 => decide (index < 8)
  | 6 => isStation index
  | 7 | 8 => decide (index = 0)
  | _ => false

/-- R180: a literal field is in range; kind 0 only where no source is required (log 12). -/
def literalInRange (b : Block) (offset : Nat) (required : Bool) : Bool :=
  let head := b.at offset
  head / 16 % 8 = 0 &&
    (if head % 16 = 0 then !required else indexInRange (head % 16) (b.at (offset + 1)))

/-- R179, R180: whether every field of the entry is in range; `offsets` are the places of the terms. -/
def entryInRange (b : Block) (offsets : List Nat) (entry : Nat) : Bool :=
  if entry = 0 then b.at 3 ≤ 3 && 10 ≤ b.at 4 && b.at 4 ≤ 250 && b.at 5 ≤ 15
  else if entry ≤ 16 then [0, 2, 5, 12].contains (b.at (5 + entry))
  else if entry ≤ 28 then
    let o := 22 + 2 * (entry - 17)
    1 ≤ b.at o && b.at o ≤ 100 && b.at (o + 1) < 4
  else if entry ≤ 36 then
    let o := 46 + 4 * (entry - 29)
    literalInRange b o false && b.at (o + 2) ≤ 8 && b.at (o + 3) ≤ 1
  else if entry ≤ 52 then
    let o := 78 + 3 * (entry - 37)
    b.at o / 64 ≤ 2 && b.at o / 16 % 4 ≤ 2 && b.at o % 16 ≤ 8 && 1 ≤ b.word (o + 1) && b.word (o + 1) ≤ 30000
  else if entry ≤ 60 then
    let o := 126 + 4 * (entry - 53)
    1 ≤ b.word o && b.at (o + 2) ≤ 8 && (b.at (o + 3) = 0 || 224 ≤ b.at (o + 3))
  else if entry = 61 then literalInRange b 158 false && b.at 160 < 4 && b.at 161 ≤ 47
  else if entry ≤ 63 then true
  else
    let o := offsets.getD (entry - 64) 0
    b.at o ≤ 9 && b.at (o + 2) / 16 ≤ 8 && b.at (o + 2) / 8 % 2 = 0 &&
      (List.range (b.at (o + 2) % 8)).all fun i => literalInRange b (o + 3 + 2 * i) true

/-- R180, code 5: the first entry with a field out of range. -/
def rangeFailure? (b : Block) (offsets : List Nat) : Option Nat :=
  (List.range (64 + offsets.length)).find? fun entry => !entryInRange b offsets entry

/-! ### CLASS (code 6) and CONTRIBUTION (code 7) -/

/-- R118, R180: a target lies in the range its kind allows, and a COUNT term names a counter without a source. -/
def targetAllowed (c : StationSetup) : Target → Bool
  | .marker n => decide (n < 32)
  | .output n => decide (n < 12)
  | .contribute p => decide (pointClass? p = some .any ∨ pointClass? p = some .all)
  | .timerCoil n | .timerReset n => decide (n < 16)
  | .countReset n => decide (n < 8)
  | .set p | .clear p => decide (pointClass? p = some .held)
  | .pulse p => decide (pointClass? p = some .count)
  | .count n => n < 8 && (c.counter n).source.isNone

/-- R180, code 6: the entry of the first term whose target is not allowed. -/
def classFailure? (c : StationSetup) : Option Nat :=
  (c.terms.findIdx? fun t => !targetAllowed c t.target).map (64 + ·)

/-- R180, code 7: the entry of the term that names the thirteenth own contribution point, given the points
counted before it. -/
def contributionFailure? (counted : List Point) (t : Nat) : List Term → Option Nat
  | [] => none
  | term :: rest =>
    match term.target with
    | .contribute p =>
      let counted := insertStation p counted
      if 12 < counted.length then some (64 + t) else contributionFailure? counted (t + 1) rest
    | _ => contributionFailure? counted (t + 1) rest

/-! ### MARKER-CYCLE (code 8), GATE-CHAIN (code 9) and GATE-REFERENCE (code 10) -/

/-- The gates met from gate `g` towards G0, at most `fuel` of them. -/
def gateChain (c : StationSetup) : Nat → Nat → List Nat
  | 0, _ => []
  | fuel + 1, g => if g = 0 then [] else g :: gateChain c fuel (c.gate g).parent

/-- The sources that the enable literals of a gate's chain read. -/
def chainSources (c : StationSetup) (g : Nat) : List Source :=
  (gateChain c 8 g).filterMap fun n => (c.gate n).enable.map (·.source)

/-- R122: the markers on which marker `m` depends directly. -/
def markerReads (c : StationSetup) (m : Nat) : List Nat :=
  (c.terms.filter fun t => t.target = .marker m).flatMap fun t =>
    (t.literals.map (·.source) ++ chainSources c t.gate).filterMap fun src =>
      match src with
      | .marker k => some k
      | _ => none

/-- The markers reached from a set along dependence, `fuel` times over. -/
def reach (reads : List (List Nat)) : Nat → List Nat → List Nat
  | 0, found => found
  | fuel + 1, found =>
    reach reads fuel
      ((List.range 32).filter fun k => found.contains k || found.any fun m => (reads.getD m []).contains k)

/-- R180, code 8: the lowest marker on a cycle of dependence. -/
def markerCycle? (c : StationSetup) : Option Nat :=
  let reads := (List.range 32).map (markerReads c)
  (List.range 32).find? fun m => (reach reads 32 (reads.getD m [])).contains m

/-- R122: the chain from gate `g` reaches G0 and holds at most four gates, `g` and G0 counted. -/
def chainOk (c : StationSetup) : Nat → Nat → Bool
  | 0, _ => false
  | fuel + 1, g => g = 0 || chainOk c fuel (c.gate g).parent

/-- R180, code 9: the entry of the lowest gate whose chain is refused (log 13). -/
def gateChainFailure? (c : StationSetup) : Option Nat :=
  ((List.range 8).find? fun n => !chainOk c 4 (n + 1)).map (29 + ·)

/-- R180, code 10: the entry of the first timer or counter whose own gate's chain reads its done state. -/
def gateReferenceFailure? (c : StationSetup) : Option Nat :=
  match (List.range 16).find? fun n => (chainSources c (c.timer n).gate).contains (.timer n) with
  | some n => some (37 + n)
  | none =>
    ((List.range 8).find? fun n => (chainSources c (c.counter n).gate).contains (.counter n)).map (53 + ·)

/-- R180: the first content check that fails after RANGE, in the order of the codes. -/
def contentFailure? (c : StationSetup) : Option LoadFailure :=
  match classFailure? c with
  | some e => some ⟨6, e⟩
  | none =>
    match contributionFailure? c.faultPoint.toList 0 c.terms with
    | some e => some ⟨7, e⟩
    | none =>
      match markerCycle? c with
      | some e => some ⟨8, e⟩
      | none =>
        match gateChainFailure? c with
        | some e => some ⟨9, e⟩
        | none => (gateReferenceFailure? c).map fun e => ⟨10, e⟩

/-- R178 to R180: the load of a block whose length lies in range: its configuration, or the first failure. -/
def loadBlock (b : Block) : Except LoadFailure StationSetup :=
  if b.at 0 ≠ 1 then .error ⟨2, 0⟩
  else if !checkWordOk b then .error ⟨4, 0⟩
  else
    match termOffsets b with
    | .error e => .error ⟨3, e⟩
    | .ok offsets =>
      match rangeFailure? b offsets with
      | some e => .error ⟨5, e⟩
      | none =>
        let c := setupOf b offsets
        match contentFailure? c with
        | some failure => .error failure
        | none => .ok c

end Sys2Proof.Machine
end

