-- ==== Sys2Proof/Machine/Loader.lean ====
section
/-! DEFINITION. The configuration loader: the two transfers, the failure of a load and the handover to LISTEN
(R176 to R182). -/

namespace Sys2Proof.Machine

/-- R178, R180, R181: a load fails: CONFIG-INVALID is reported in START, and the station goes to CONFIG-FAULT. -/
def State.loadFails (s : State) (failure : LoadFailure) : State :=
  (s.report .configInvalid (some (.config failure.code failure.entry))).toConfigFault

/-- R147, R182: the input filters start from the lines; a filter time of 0 hands its source change at once. -/
def State.startInputs (s : State) : State :=
  (List.range 16).foldl (fun s n =>
    match s.field.inputs[n]? with
    | some i => s.putInput n i (i.atHandover (s.setup.filter n))
    | none => s) s

/-- R152, R182: the readback checks of enabled outputs enter SETTLING. -/
def FieldUnit.startChecks (f : FieldUnit) (setup : StationSetup) : FieldUnit :=
  { f with outputs := f.outputs.mapIdx fun n o => o.atHandover (setup.output n) }

/-- R182: the handover to LISTEN with configuration `c`. The evaluator has its configuration before any source change
reaches it. DESIGN CHOICE: of the other blocks' parts R182 says that they need no order against each other; here capture
is ARMED (R164) before the first source change of an input with filter time 0 (R147) is taken, so that the rise of a
trigger literal at that change is always a trigger (log 37). -/
def State.handover (s : State) (c : StationSetup) : State :=
  let s := { s with
    loader := { s.loader with phase := .none, config := some c }
    asm := { s.asm with rows := contributionTable c }
    eval := Evaluator.atHandover c s.fault.line
    field := s.field.startChecks c
    capture := s.capture.atHandover c.capture.autoArm }
  (s.enterListen 0).startInputs

/-- R178 to R182: a block whose second transfer has completed is checked, and the load fails or succeeds. -/
def State.takeBlock (s : State) (b : Block) : State :=
  match loadBlock b with
  | .ok c => s.handover c
  | .error failure => s.loadFails failure

/-- R178: the first transfer has completed with the three bytes `h`. A length out of range leaves the second
transfer out; a wrong format tag is reported before it, and otherwise after both transfers (log 10). -/
def State.takeHeader (s : State) (h : Block) : State :=
  if lengthInRange (h.word 1) then { s with loader := { s.loader with phase := .body h } }
  else s.loadFails (if h.at 0 ≠ 1 then ⟨2, 0⟩ else ⟨3, 0⟩)

/-- R178: a transfer of `n` bytes: complete when the memory has answered them all (log 10). -/
def completed? (answer : Option (List Byte)) (n : Nat) : Option (List Byte) :=
  match answer with
  | some bytes => if n ≤ bytes.length then some (bytes.take n) else none
  | none => none

/-- R178: completion or failure of the transfer that the loader waits for. -/
def State.takeTransfer (s : State) (answer : Option (List Byte)) : State :=
  match s.loader.phase with
  | .none => s
  | .header =>
    match completed? answer 3 with
    | some h => s.takeHeader h
    | none => s.loadFails ⟨1, 0⟩
  | .body h =>
    match completed? answer (Block.word h 1 - 3) with
    | some rest => s.takeBlock (h ++ rest)
    | none => s.loadFails ⟨1, 0⟩

end Sys2Proof.Machine
end

