-- ==== Sys2Proof/Machine/Sending.lean ====
section
/-! DEFINITION. Sending: the frame that is due, its start, and the settlement of its outcome (R58 to R62, R66,
R70 to R76). -/

namespace Sys2Proof.Machine

/-! ### The choice (R62, R75) -/

/-- R74, R76: the frame of the join slot, JOIN or ENTRY. -/
def joinSlotFrame (s : State) : JoinFrame → Frame
  | .join => .join s.number s.join.choice s.ownPeriod
  | .entry => .entry s.number s.ownPeriod (entryItems s.asm s.setup.faultPoint)

/-- R101: the IMAGE part in the respondent slot. -/
def partFrame? (s : State) : Option Frame :=
  if s.asm.partSlot then
    s.join.snapshot.map fun sn => .image s.number sn.joiner sn.next (snapshotPart sn sn.next)
  else none

/-- R72 to R75: the due frames of an ACTIVE station, in the order of their ranks. -/
def activeClaims (s : State) : List (Option (Frame × Origin)) :=
  let items := updateItems s.asm s.setup.faultPoint
  [s.asm.lossSet.head?.map fun t => (.loss s.number t, .loss),
    s.asm.releaseSlot.map fun t => (.release s.number t, .release),
    s.asm.busySet.head?.map fun j => (.busy s.number j, .busy j),
    (partFrame? s).map fun f => (f, .part),
    if items.isEmpty then none else some (.update s.number items, .update),
    if s.asm.rollDue then some (.rollcall s.number s.ownPeriod, .rollcall) else none,
    responseFrame? s]

/-- R75: the due frame of lowest rank that the lifecycle allows, with the claim it carries. -/
def dueFrame? (s : State) : Option (Frame × Origin) :=
  match s.lifecycle with
  | .listen => if s.asm.joinSlot = some .join then some (joinSlotFrame s .join, .joinSlot) else none
  | .joining => s.asm.joinSlot.map fun j => (joinSlotFrame s j, .joinSlot)
  | .active => (activeClaims s).findSome? id
  | .start | .configFault | .detached | .linkFault => none

/-- R62: the station may open or join a start cell. -/
def State.mayStart (s : State) : Bool :=
  s.commit.idleReached && s.commit.flight.isNone && s.commit.pacing.isNone && s.lifecycle.onMedium

/-- R73: the start cells from which the roll-call timer measures: those of a station ACTIVE and that of the
ENTRY (log 28). -/
def timesRollCall (s : State) (f : Frame) : Bool :=
  decide (s.lifecycle = .active) ||
    match f with
    | .entry _ _ _ => true
    | _ => false

/-- R61, R62, R71, R73: the frame `f` with its claim goes into flight. -/
def State.launch (s : State) (f : Frame) (origin : Origin) : State :=
  { s with
    commit := { s.commit with
      idle := 0, reception := some [], flight := some ⟨f, origin, false⟩, stopped := false }
    asm :=
      let a := if origin = .update then s.asm.startUpdate s.setup.faultPoint else s.asm
      { a with rollTimer := if timesRollCall s f then some 0 else s.asm.rollTimer }
    freeIndex := if origin.isResponse then s.freeIndex + 1 else s.freeIndex }

/-- R62: a chance to send. -/
def State.startFrame (s : State) : State :=
  if s.mayStart then
    match dueFrame? s with
    | some (f, origin) => s.launch f origin
    | none => s
  else s

/-! ### Outcomes (R58, R59, R77) -/

/-- R66, R70: VETOED, ABORTED or ARBITRATION-LOST at the assembler; slots keep their frames (R74). -/
def State.settleFailed (s : State) : State :=
  { s with
    commit := { s.commit with flight := none }
    asm := { s.asm with rows := rowsFailed s.asm.rows, requests := requestsFailed s.asm.requests } }

/-- R58: a send failure; the eighth in a row detaches the station. -/
def State.countFailure (s : State) : State :=
  if s.commit.failures < 7 then { s with commit := { s.commit with failures := s.commit.failures + 1 } }
  else s.detach (some .sendRetries)

/-- R74, R76: what COMMITTED does to the slot that the frame came from, unless its claim was withdrawn. -/
def State.settleSlot (s : State) (fl : Flight) (wasLost : Bool) : State :=
  match fl.origin with
  | .joinSlot =>
    match fl.frame with
    | .entry _ _ items =>
      { s with asm := { s.asm with joinSlot := none, rows := rowsEntered s.asm.rows items } }
    | _ => { s with asm := { s.asm with joinSlot := none } }
  | .loss | .update | .rollcall => s
  | .part => s.partSent
  | .busy j => { s with asm := { s.asm with busySet := eraseStation j s.asm.busySet } }
  | .release => ({ s with asm := { s.asm with releaseSlot := none } }).releaseCommitted wasLost
  | .busyAnswer r => ({ s with asm := { s.asm with responseSlot := none } }).busyAnswered r
  | .sessionPart _ => ({ s with asm := { s.asm with responseSlot := none } }).partCommitted

/-- R66, R70, R73, R77: COMMITTED at the assembler. `wasLost` is whether the frame's target was LOST before the
commit. The commit of a RESTART's DONE performs the restart, withdrawn or not (R174). -/
def State.settleCommitted (s : State) (fl : Flight) (wasLost : Bool) : State :=
  let s := { s with asm := { s.asm with
    rollDue := false
    rows := rowsCommitted s.asm.rows
    requests := requestsCommitted s.asm.requests } }
  if fl.origin = .sessionPart true then s.restartAfter
  else if fl.withdrawn then s
  else s.settleSlot fl wasLost

end Sys2Proof.Machine
end

