-- ==== Sys2Proof/Machine/Commit.lean ====
section
/-! DEFINITION. The close of a check slot at this station: verdict, veto budget, duplicate number, delivery of a
committed frame to the blocks, outcome of the frame in flight (R40 to R43, R52 to R57). -/

namespace Sys2Proof.Machine

/-- A dominant level restarts the idle count; the frame in reception ends at the close of its slot (R46, R47). -/
def State.frameEnds (s : State) : State :=
  { s with commit := { s.commit with idle := 0, reception := none, stopped := false } }

/-- R60: a frame of another station has opened a start cell, which ends pacing (log 25). -/
def State.endPacing (s : State) : State := { s with commit := { s.commit with pacing := none } }

/-- R52, R57: this station vetoes; the fourth veto in a row detaches it. -/
def State.ownVeto (s : State) : State :=
  if s.commit.vetoes < 3 then { s with commit := { s.commit with vetoes := s.commit.vetoes + 1 } }
  else s.detach (some .vetoBudget)

/-- R57: the slot was left recessive on a well-formed frame. -/
def State.vetoesCleared (s : State) : State :=
  if s.lifecycle.participates then { s with commit := { s.commit with vetoes := 0 } } else s

/-- R84: a LOSS that names station `own`. -/
def namesLost (own : Station) : Frame → Bool
  | .loss _ t => t = own
  | _ => false

/-! ### Delivery to the blocks (R54) -/

/-- R96, R98, R103: a commit observed in LISTEN. -/
def State.deliverListening (s : State) (f : Frame) (own : Bool) : State :=
  let founding := s.image.standing = .founding
  if own then
    let s := if founding then s.applyFounding f else s
    match f with
    | .join _ r _ => s.becomeJoining r
    | _ => s
  else
    let s := s.noteCandidate f
    if founding then s.applyFounding f else s

/-- R84, R103 to R105: a commit at a joiner whose image is not complete. -/
def State.deliverJoiner (s : State) (f : Frame) (own : Bool) : State :=
  if own then
    match f with
    | .join _ r _ => s.becomeJoining r
    | _ => s
  else if namesLost s.number f then s.detach (some .namedLost)
  else
    match f with
    | .image sender t k body => if t = s.number then s.takePart sender k body else s
    | .busy sender t => if t = s.number then s.takeBusy sender else s
    | f => if isBacklogKind f && !s.join.awaiting then s.keepInBacklog f else s

/-- R54, R79, R85: the image, the roster, the LOSS set and the stray set after an accepted live frame. -/
def State.applyLiveFrame (s : State) (f : Frame) : State :=
  let sender := frameSender f
  let s := { s with
    image := s.image.applyLive s.roster f
    roster := breakSilence s.number sender (rosterEffect s.number true f s.roster)
    join := { s.join with stray := eraseEntry sender s.join.stray } }
  let s := if sender = s.number then s else s.dropLoss sender
  match f with
  | .loss _ t => s.dropLoss t
  | _ => s

/-- R100, R102, R106: this station as respondent, at an accepted live frame; `before` is the roster before it. -/
def State.respond (s : State) (before : Roster) (f : Frame) : State :=
  match f with
  | .join j r _ => if s.lifecycle = .active then s.respondToJoin j r else s
  | .loss _ t =>
    match before.stateOf t with
    | .active | .joining => (s.dropSnapshotFor t).withdrawBusy t
    | .absent | .lost => s
  | .entry j _ _ => s.dropSnapshotFor j
  | _ => s

/-- The station that a LOSS or JOIN may take out of ACTIVE. -/
def departing? : Frame → Option Station
  | .loss _ t => some t
  | .join s _ _ => some s
  | _ => none

/-- R165, R169: the service unit at an accepted live frame; `before` is the roster before it. -/
def State.serve (s : State) (before : Roster) (f : Frame) : State :=
  match f with
  | .svcReq requester t tag request =>
    if t = s.number && s.lifecycle = .active then s.takeServiceRequest requester tag request else s
  | f =>
    match departing? f with
    | some t => if before.stateOf t = .active && s.roster.stateOf t ≠ .active then s.requesterLeft t else s
    | none => s

/-- R112: the heard peers have become fewer and the stray set is larger than them. -/
def State.isolatedSince (s : State) (before : Roster) : Bool :=
  heardPeers s.number s.roster < heardPeers s.number before && s.outnumbered

/-- R18, R20, R89, R90, R161: what the blocks hand on at an accepted live frame; `before` is the state before. -/
def State.liveHandOffs (s before : State) (f : Frame) : List HandOff :=
  let bodies := frameRecords before.image.points f
  let recorded := before.lifecycle = .active && !s.isolatedSince before.roster
  pointChanges before.image s.image f ++ peerChanges before.roster s.roster ++ pulseHandOffs f
    ++ (if recorded && !bodies.isEmpty then [.group bodies] else []) ++ before.mismatchReport f

/-- R54: an accepted live frame at every block but the join controller's own lifecycle. -/
def State.takeLiveFrame (s : State) (f : Frame) : State :=
  let after := ((s.applyLiveFrame f).respond s.roster f).serve s.roster f
  after.post (after.liveHandOffs s f)

/-- R110: this station's own ENTRY has committed. -/
def State.becomeActive (s : State) : State :=
  State.post
    { s with
      lifecycle := .active
      join := { s.join with attempts := 0 } }
    [.lifecycleToEvaluator, .lifecycleToField]

/-- R41, R84, R109 to R112: a commit at a station whose image is complete. -/
def State.deliverLive (s : State) (f : Frame) (own : Bool) : State :=
  if !accepts s.roster f then
    if isJoin f || own then s
    else
      match s.roster.stateOf (frameSender f) with
      | .absent | .lost => s.noteStray (frameSender f)
      | .joining | .active => s
  else if namesLost s.number f then s.detach (some .namedLost)
  else s.takeLiveFrame f

/-- R81, R110: the commit of this station's own ENTRY, accepted or not (R42). -/
def State.ownEntry (s : State) : State :=
  let r := if s.roster.stateOf s.number = .active then restartSilences s.number s.roster else s.roster
  { s with roster := r }.becomeActive

/-- R54, R55: a committed frame reaches the blocks. What this station's own ENTRY hands on may be taken before or after
the lifecycle becomes ACTIVE (R131). -/
def State.deliver (s : State) (f : Frame) (own : Bool) : State :=
  match s.lifecycle with
  | .listen => s.deliverListening f own
  | .joining =>
    if s.image.standing = .complete then
      match own, f with
      | true, .entry _ _ _ => (s.deliverLive f own).someTasks.ownEntry
      | _, _ => s.deliverLive f own
    else s.deliverJoiner f own
  | .active => s.deliverLive f own
  | .start | .configFault | .detached | .linkFault => s

/-- R112: the detach of a station that hears fewer peers than strays, after the effects of the slot. -/
def State.checkIsolation (s : State) (before : Roster) : State :=
  if s.lifecycle.participates && s.image.standing = .complete && s.isolatedSince before then
    s.detach (some .namedLost)
  else s

/-! ### The close of the slot -/

/-- The frame in flight, where `f` is that frame (R43, R53). -/
def CommitUnit.flownAs? (c : CommitUnit) (f : Frame) : Option Flight :=
  match c.flight with
  | some fl => if fl.frame = f then some fl else none
  | none => none

/-- R173: whether the target of a RELEASE is LOST in the roster. -/
def targetLost (r : Roster) : Frame → Bool
  | .release _ t => r.stateOf t = .lost
  | _ => false

/-- R53, R58, R60: this station's own frame has committed. Its outcome may reach the assembler before or after
any of the hand-offs of the commit (R77). -/
def State.ownCommitted (s : State) (fl : Flight) : State :=
  let before := s.roster
  let s := { s with commit := { s.commit with
    failures := 0
    flight := none
    pacing := if s.setup.pacingGap = 0 then none else some 0 } }
  let s := (s.deliver fl.frame true).someTasks
  (s.settleCommitted fl (targetLost before fl.frame)).checkIsolation before

/-- R46 to R48: the cells that this station has recorded of the frame whose slot closes, none where it has not seen the
start cell or has found the frame stopped and discarded it. A command may bring a whole frame without its cells: its
start cell was seen where idle had been reached, and always by a participating station (R52; log 15). -/
def State.recordedCells? (s : State) : Option (List Cell) :=
  match s.commit.reception with
  | some cells => some cells
  | none =>
    if !s.commit.stopped && (s.commit.idleReached || s.lifecycle.participates) then some [] else none

/-- R40, R45 to R48: the verdict on frame `f` as this station received it: the cells recorded, and the rest of the frame
as it was sent up to the marked slot. None where this station has no record of the frame. -/
def State.received? (s : State) (f : Frame) : Option (Except Malformed Frame) :=
  s.recordedCells?.map fun cells =>
    match frameFault? f with
    | some reason => .error reason
    | none =>
      if cells.isEmpty then .ok f
      else judgeCells (cells ++ ((encodeFrame f).drop cells.length).map .bit)

/-- R43, R52 to R57: a frame of another sender, at the close of an unvetoed slot. A frame joined midway, and one that
this station has found stopped, is activity only: it reaches no block and changes no count (R46, R48, R55). -/
def State.peerCommitted (s : State) (f : Frame) : State :=
  match s.received? f with
  | none => s.frameEnds.noteActivity
  | some (.error _) =>
    let s := s.frameEnds.endPacing.noteActivity
    if s.lifecycle.participates then s.ownVeto else s
  | some (.ok g) =>
    let s := s.frameEnds.endPacing.noteActivity.vetoesCleared
    if frameSender g = s.number then s.toLinkFault .duplicateStation
    else (s.deliver g false).checkIsolation s.roster

/-- R53 to R56: the check slot of frame `f` closes without a veto of another station. -/
def State.commitFrame (s : State) (f : Frame) : State :=
  if s.loader.held then s
  else if !s.lifecycle.onMedium then s.frameEnds
  else
    match s.commit.flownAs? f with
    | some fl => s.frameEnds.ownCommitted fl
    | none => s.peerCommitted f

/-- The cell time at the configured bit rate (R44). -/
def State.cellTime (s : State) : Nat := s.setup.bitRate.cellTime

/-- R45 to R48: the record on which this station judges a frame in its slot, once the levels `cells` have joined it;
none where it has found the frame stopped. -/
def State.slotRecord? (s : State) (cells : List Waveform) : Option (List Cell) :=
  s.recordedCells?.bind fun recorded => takeCells s.cellTime recorded cells

/-- R48, R53, R57, R58: the check slot closes vetoed; `cells` are the levels this station saw since its record was
last extended (log 16). A receiver that has found the frame stopped neither vetoes nor counts. -/
def State.vetoSlot (s : State) (cells : List Waveform) : State :=
  if s.loader.held then s
  else if !s.lifecycle.onMedium then s.frameEnds
  else if s.commit.flight.isSome then s.frameEnds.settleFailed.countFailure
  else
    let taken := s.slotRecord? cells
    let s := s.frameEnds.endPacing.noteActivity
    if !s.lifecycle.participates then s
    else
      match taken.map judgeCells with
      | none => s
      | some (.ok _) => s.vetoesCleared
      | some (.error _) => s.ownVeto

end Sys2Proof.Machine
end

