-- ==== Sys2Proof/Machine/ResetCommands.lean ====
section
/-! DEFINITION. The commands of the start of a station: POWER_ON_RESET, RESET_LINE_ASSERTION, RESET_RELEASE and
CONFIGURATION_READ (R176 to R182). -/

namespace Sys2Proof.Machine

/-- What every command answers: the next state, every hand-off taken (R127). -/
abbrev Answer := Host.Outcome State Fault Refusal

/-- The end of a command: its hand-offs are taken, and the station goes on. -/
def State.answer (s : State) : Answer := .next s.finish

/-- R176: a power-on reset; the supplies have not settled yet (log 8). -/
def execPowerOnReset (s : State) : Answer := s.resetBlocks.answer

/-- R176: RESET_N goes low; the station stays in the reset state while it is low (log 8). -/
def execResetLineAssertion (s : State) : Answer := s.resetBlocks.answer

/-- R176, R177: the reset line is released, or the supplies have settled; the straps are read as they stand. -/
def execResetRelease (straps : BitVec 5) (s : State) : Answer :=
  (if s.loader.held then { s with loader := { s.loader with straps := straps } }.readStraps else s).answer

/-- R178 to R182: a transfer from the configuration memory has completed or failed. -/
def execConfigurationRead (bytes : Option (List Byte)) (s : State) : Answer :=
  (if s.loader.held then s else s.takeTransfer bytes).answer

end Sys2Proof.Machine
end

