-- ==== Sys2Proof/Machine/MediumCommands.lean ====
section
/-! DEFINITION. The commands of the medium other than commits: IDLE_REACHED, FRAME_START, ARBITRATION_LOST, ABORT,
FRAME_INCOMPLETE, VETO and ACTIVITY (R44 to R63), and what the station drives on the medium. -/

namespace Sys2Proof.Machine

/-- R46: ten recessive cell times have passed; the next dominant edge opens a start cell, so a frame found stopped is
over. DESIGN CHOICE, unsafe: a record still held stays. By R26 and R48 the stop of its frame is found before idle is
reached, and the model leaves it to FRAME_INCOMPLETE, so a later frame command without a start cell of its own is judged
with the old cells (log 42). -/
def execIdleReached (s : State) : Answer :=
  (if s.loader.held then s
    else { s with commit := { s.commit with idle := Config.idleCells, stopped := false } }).answer

/-- R62: a chance to send: the station opens or joins a start cell with its due frame (log 24). -/
def execFrameStart (s : State) : Answer := s.startFrame.answer

/-- R49, R50: arbitration can be lost while a frame is in flight and its key has not passed. -/
def CommitUnit.arbitrates (c : CommitUnit) : Bool := c.flight.isSome && (c.reception.getD []).length < 9

/-- R50: arbitration is lost in a cell of the key; the station goes on receiving the frame on the medium. -/
def execArbitrationLost (s : State) : Answer :=
  (if s.commit.arbitrates then s.settleFailed else s).answer

/-- R51, R58: a sender aborts its frame and counts a send failure. -/
def State.abortFlight (s : State) : State := s.settleFailed.countFailure

/-- R51: the station aborts its frame. -/
def execAbort (s : State) : Answer :=
  (if s.commit.flight.isSome then s.abortFlight else s).answer

/-- R48: the frame on the medium is found stopped: its record is discarded, and what is left of it reaches no block and
changes neither count (log 41). Its levels have restarted the idle count (R46). -/
def State.frameStops (s : State) : State :=
  { s with commit := { s.commit with idle := 0, reception := none, stopped := true } }

/-- R48: the frame has stopped. -/
def execFrameIncomplete (s : State) : Answer :=
  (if s.loader.held then s else s.frameStops.noteActivity).answer

/-- R53: a check slot closes vetoed. -/
def execVeto (cells : List Waveform) (s : State) : Answer := (s.vetoSlot cells).answer

/-- R45, R46: the record that opens at a dominant edge seen after idle: a pulse that is not long makes a broken
start cell. -/
def openedRecord (t : Nat) : Activity → List Cell
  | .startCell | .level => []
  | .cell w => startRecord t w

/-- R46 to R48, R60: a dominant level of another station; `t` is the cell time. After idle it opens a start cell, which
ends pacing; before idle it belongs to a frame already on the medium, which it may find stopped. -/
def CommitUnit.observe (c : CommitUnit) (t : Nat) (onMedium : Bool) (a : Activity) : CommitUnit :=
  if c.idleReached then
    if onMedium then { c with idle := 0, pacing := none, reception := some (openedRecord t a), stopped := false }
    else { c with idle := 0 }
  else
    match a, c.reception with
    | .cell w, some cells =>
      let record := takeCell t cells w
      { c with idle := 0, reception := record, stopped := record.isNone }
    | _, _ => { c with idle := 0 }

/-- R44, R45, R49, R51: what the level `w` means to the sender of `sent`, of which `cells` have been received: its start
cell or the cell before is broken, it is the next cell, or the next cell has not opened. None after the last cell. -/
def sentStanding (t : Nat) (sent : List Bool) (cells : List Cell) (w : Waveform) : Option SenderStanding :=
  if opensStart w cells then some (if startBroken t w then .aborts else .continues)
  else
    match edgePlace t w.first.edge with
    | .within => some .aborts
    | .opening => sent[cells.length]?.map fun bit => senderStanding cells.length bit (readCell t w)
    | .slot | .stopped => sent[cells.length]?.map fun _ => .aborts

/-- R49: what a level seen on the medium means to this station as the sender of a frame; none where it sends none. -/
def CommitUnit.standingAt? (c : CommitUnit) (t : Nat) (a : Activity) : Option SenderStanding :=
  match a, c.flight, c.reception with
  | .cell w, some fl, some cells => if c.idleReached then none else sentStanding t (encodeFrame fl.frame) cells w
  | _, _, _ => none

/-- R49 to R51: the frame in flight goes on, loses arbitration or is aborted. -/
def State.senderActs (s : State) : Option SenderStanding → State
  | some .lost => s.settleFailed
  | some .aborts => s.abortFlight
  | some .continues | none => s

/-- R46, R47, R49 to R51, R55: a dominant level is seen on the medium. The cell joins the record before its sender
acts. -/
def execActivity (a : Activity) (s : State) : Answer :=
  (if s.loader.held then s
    else
      (({ s with commit := s.commit.observe s.cellTime s.lifecycle.onMedium a }).noteActivity).senderActs
        (s.commit.standingAt? s.cellTime a)).answer

/-! ### What this station drives (R44, R49 to R52, R56) -/

/-- R44, R46: the pulse with which this station opens or joins a start cell. -/
def State.drivesStart (s : State) : List Pulse :=
  if s.mayStart && (dueFrame? s).isSome then [drivenStart s.cellTime] else []

/-- R44, R50 to R52: what this station drives in the next cell: the bit of its frame in flight, or the marker after the
last; in a cell that another station has marked as the check slot, a veto of a malformed frame. -/
def State.drives (s : State) (marked : Bool) : List Pulse :=
  match s.commit.flight, s.commit.reception with
  | some fl, some cells =>
    match (encodeFrame fl.frame)[cells.length]? with
    | some bit => [drivenBit s.cellTime bit]
    | none => if cells.length = (encodeFrame fl.frame).length then [slotMarker s.cellTime] else []
  | none, some cells =>
    match judgeCells cells with
    | .ok _ => []
    | .error _ => if marked && s.lifecycle.participates then [vetoPulse s.cellTime] else []
  | _, none => []

end Sys2Proof.Machine
end

