-- ==== Sys2Proof/Machine/FrameCommands.lean ====
section
/-! DEFINITION. The commits of frames other than service requests: LOSS, RELEASE, JOIN, BUSY, IMAGE, ENTRY, UPDATE,
ROLLCALL and SVC_RSP. Each frame is this station's own where it is the frame in flight (R43, R53). -/

namespace Sys2Proof.Machine

/-- R82, R84: a LOSS commits. -/
def execLoss (sender target : Station) (s : State) : Answer := (s.commitFrame (.loss sender target)).answer

/-- R83, R173: a RELEASE commits. -/
def execRelease (sender target : Station) (s : State) : Answer := (s.commitFrame (.release sender target)).answer

/-- R80, R100, R103, R106: a JOIN commits. -/
def execJoin (sender respondent : Station) (period : Nat) (s : State) : Answer :=
  (s.commitFrame (.join sender respondent period)).answer

/-- R104: a BUSY commits. -/
def execBusy (sender target : Station) (s : State) : Answer := (s.commitFrame (.busy sender target)).answer

/-- R101, R103: an IMAGE part commits. -/
def execImage (sender target : Station) (part : Nat) (body : PartBody) (s : State) : Answer :=
  (s.commitFrame (.image sender target part body)).answer

/-- R16, R81, R110: an ENTRY commits. -/
def execEntry (sender : Station) (period : Nat) (items : List Item) (s : State) : Answer :=
  (s.commitFrame (.entry sender period items)).answer

/-- R8 to R12, R18 to R20: an UPDATE commits. -/
def execUpdate (sender : Station) (items : List Item) (s : State) : Answer :=
  (s.commitFrame (.update sender items)).answer

/-- R85, R89: a ROLLCALL commits. -/
def execRollcall (sender : Station) (period : Nat) (s : State) : Answer :=
  (s.commitFrame (.rollcall sender period)).answer

/-- R165, R168: a SVC-RSP commits. -/
def execSvcRsp (sender target : Station) (tag : Byte) (status : Status) (part parts : Nat) (payload : List Byte)
    (s : State) : Answer :=
  (s.commitFrame (.svcRsp sender target tag status part parts payload)).answer

end Sys2Proof.Machine
end

