-- ==== Sys2Proof/Machine/ServiceCommands.lean ====
section
/-! DEFINITION. The commits of the nine service requests (R36, R165 to R174). -/

namespace Sys2Proof.Machine

/-- A SVC-REQ commits (R165). -/
def State.commitRequest (s : State) (sender target : Station) (tag : Byte) (request : Request) : Answer :=
  (s.commitFrame (.svcReq sender target tag request)).answer

/-- R170: READ-POINT. -/
def execReadPoint (sender target : Station) (tag point : Byte) (s : State) : Answer :=
  s.commitRequest sender target tag (.readPoint point)

/-- R170: READ-ROSTER. -/
def execReadRoster (sender target : Station) (tag : Byte) (s : State) : Answer :=
  s.commitRequest sender target tag .readRoster

/-- R170: READ-LOCAL. -/
def execReadLocal (sender target : Station) (tag : Byte) (s : State) : Answer :=
  s.commitRequest sender target tag .readLocal

/-- R170: READ-FAULT. -/
def execReadFault (sender target : Station) (tag : Byte) (s : State) : Answer :=
  s.commitRequest sender target tag .readFault

/-- R159, R172: CLEAR-FAULT. -/
def execClearFault (sender target : Station) (tag : Byte) (counts : Bool) (s : State) : Answer :=
  s.commitRequest sender target tag (.clearFault counts)

/-- R171: READ-CAPTURE. -/
def execReadCapture (sender target : Station) (tag : Byte) (first : Word16) (count : Nat) (s : State) : Answer :=
  s.commitRequest sender target tag (.readCapture first count)

/-- R162, R172: ARM-CAPTURE. -/
def execArmCapture (sender target : Station) (tag : Byte) (s : State) : Answer :=
  s.commitRequest sender target tag .armCapture

/-- R173: RELEASE-STATION. -/
def execReleaseStation (sender target : Station) (tag : Byte) (station : Station) (s : State) : Answer :=
  s.commitRequest sender target tag (.releaseStation station)

/-- R174: RESTART. -/
def execRestart (sender target : Station) (tag : Byte) (s : State) : Answer :=
  s.commitRequest sender target tag .restart

end Sys2Proof.Machine
end

