-- ==== Sys2Proof/Machine/TimerCommands.lean ====
section
/-! DEFINITION. The expiries of the station's timers: each is taken where its timer runs and has reached its
limit, and does not happen where a command before it has stopped the timer or started it again (log 2). -/

namespace Sys2Proof.Machine

/-- R97: the end of the listen period. -/
def execListenPeriodExpiry (s : State) : Answer :=
  (if s.lifecycle = .listen && reached s.join.listenTimer s.listenLimit then s.endListening else s).answer

/-- R104, R107: the answer timer of a joiner, or of a founder that nobody has answered. -/
def State.answerExpires (s : State) : State :=
  if s.join.respondent = none && s.image.standing = .frozen then s.completeFromFounding else s.nextCandidate

/-- R104, R107: the answer timer expires. -/
def execAnswerTimerExpiry (s : State) : Answer :=
  (if s.lifecycle = .joining && reached s.join.answerTimer s.answerLimit then s.answerExpires else s).answer

/-- R104: the part gap is exceeded. -/
def execPartGapExpiry (s : State) : Answer :=
  (if s.lifecycle = .joining && reached s.join.gapTimer s.gapLimit then s.nextCandidate else s).answer

/-- R114: the rejoin holdoff expires. -/
def execRejoinHoldoffExpiry (s : State) : Answer :=
  (if s.lifecycle = .detached && reached s.join.holdoff s.holdoffLimit then s.returnToListen else s).answer

/-- R111: a member has been in the stray set for three own periods. -/
def execStraySetExpiry (t : Station) (s : State) : Answer :=
  (if reached (entryOf? t s.join.stray) s.strayLimit then
    { s with join := { s.join with stray := eraseEntry t s.join.stray } }
  else s).answer

/-- Whether the silence timer of station `t` runs and has exceeded its limit (R78, R85). -/
def silenceExceeds (s : State) (t : Station) : Bool :=
  s.image.standing = .complete && t ≠ s.number && s.roster.stateOf t = .active
    && reached (s.roster.entry t).silence (s.roster.entry t).silenceLimit

/-- R85, R112: station `t` has been silent beyond its limit. -/
def State.silenceExceeded (s : State) (t : Station) : State :=
  (({ s with roster := s.roster.update t fun e => { e with silence := none } }).addLoss t).checkIsolation s.roster

/-- R85: a silence timer exceeds its limit. -/
def execSilenceLimit (t : Station) (s : State) : Answer :=
  (if silenceExceeds s t then s.silenceExceeded t else s).answer

/-- Whether the entry deadline of station `t` runs and has been exceeded (R78, R86). -/
def deadlineExceeds (s : State) (t : Station) : Bool :=
  s.image.standing = .complete && t ≠ s.number && s.roster.stateOf t = .joining
    && reached (s.roster.entry t).deadline (s.roster.entry t).deadlineLimit

/-- R86: an entry deadline is exceeded. -/
def execEntryDeadline (t : Station) (s : State) : Answer :=
  (if deadlineExceeds s t then
    ({ s with roster := s.roster.update t fun e => { e with deadline := none } }).addLoss t
  else s).answer

/-- R73: the roll-call timer reaches own P. -/
def execRollcallDue (s : State) : Answer :=
  (if s.lifecycle = .active && reached s.asm.rollTimer s.ownPeriod then { s with asm := { s.asm with rollDue := true } }
  else s).answer

/-- R60: the pacing gap has elapsed. -/
def execPacingGap (s : State) : Answer :=
  (if reached s.commit.pacing s.setup.pacingGap then s.endPacing else s).answer

/-- R13: the pulse flag of a count-class point goes OFF. -/
def State.closeWindow (s : State) (p : Point) : State :=
  State.post { s with image := { s.image with windows := s.image.windows.set (p - 224) none } }
    (handPoints (if s.image.termVisible p then [(p, false)] else []))

/-- R13: a pulse window expires. -/
def execPulseWindowExpiry (p : Point) (s : State) : Answer :=
  (if pointClass? p = some .count && reached (s.image.windows.getD (p - 224) none) Config.pulseWindow then
    s.closeWindow p
  else s).answer

/-- R136: the unit clock of timer `n` completes a unit. -/
def execUnitExpiry (n : Fin 16) (s : State) : Answer :=
  (s.putTimers
    { s.timers with timers := s.timers.timers.modify n.val (TimerState.unitExpiry (s.setup.timer n.val)) }).answer

end Sys2Proof.Machine
end

