-- ==== Sys2Proof/Machine/FieldCommands.lean ====
section
/-! DEFINITION. The commands of the field lines: input and readback line changes and the expiries of the filter,
settle and mismatch timers (R146, R147, R152, R153). -/

namespace Sys2Proof.Machine

/-- R146, R147: input line `n` takes a level; a line that is not watched is only recorded. A change to the level that
the line already shows is a change away and back, which restarts a running filter run. -/
def State.inputLine (s : State) (n : Nat) (level : Bool) : State :=
  match s.field.inputs[n]? with
  | some i =>
    if s.lifecycle.watchesLines then s.putInput n i (i.lineChange (s.setup.filter n) level)
    else s.putInput n i { i with line := level }
  | none => s

/-- R146: an input line changes. -/
def execInputLineChange (n : Fin 16) (level : Bool) (s : State) : Answer := (s.inputLine n.val level).answer

/-- R146: the filter run of input `n` reaches the filter time. -/
def State.filterExpires (s : State) (n : Nat) : State :=
  match s.field.inputs[n]? with
  | some i => s.putInput n i (i.runExpiry (s.setup.filter n))
  | none => s

/-- R146: a filter run expires. -/
def execFilterRunExpiry (n : Fin 16) (s : State) : Answer := (s.filterExpires n.val).answer

/-- R152: a readback line changes. -/
def execReadbackLineChange (n : Fin 12) (level : Bool) (s : State) : Answer :=
  (s.updateOutput n.val fun o => if level = o.readback then o else o.readbackChange level).answer

/-- R152: a settle timer expires. -/
def execSettleTimerExpiry (n : Fin 12) (s : State) : Answer :=
  (s.updateOutput n.val (FieldOutput.settleExpiry (s.setup.output n.val))).answer

/-- R152, R153: a mismatch timer expires. -/
def execMismatchTimerExpiry (n : Fin 12) (s : State) : Answer :=
  (match s.field.outputs[n.val]? with
    | some o => if o.mismatchExpires (s.setup.output n.val) then s.latchOutput n.val else s
    | none => s).answer

end Sys2Proof.Machine
end

