-- ==== Sys2Proof/Machine/TimeBase.lean ====
section
/-! DEFINITION. The millisecond of the station's time base: every running timer advances, and the expiries this
causes join the queue (00_scope.md, Time; log 1, log 27). -/

namespace Sys2Proof.Machine

/-- A timer that runs counts one more millisecond. -/
def tick (t : Option Nat) : Option Nat := t.map (· + 1)

/-- The timers of the link blocks after one millisecond. -/
def JoinController.tick (j : JoinController) : JoinController :=
  { j with
    listenTimer := Machine.tick j.listenTimer
    answerTimer := Machine.tick j.answerTimer
    gapTimer := Machine.tick j.gapTimer
    stray := j.stray.map fun e => (e.1, e.2 + 1)
    holdoff := Machine.tick j.holdoff }

/-- The roster's timers after one millisecond. -/
def RosterEntry.tick (e : RosterEntry) : RosterEntry :=
  { e with silence := Machine.tick e.silence, deadline := Machine.tick e.deadline }

/-- The timers of the field lines after one millisecond. -/
def FieldUnit.tick (f : FieldUnit) : FieldUnit where
  inputs := f.inputs.map fun i => { i with run := Machine.tick i.run }
  outputs := f.outputs.map fun o => { o with timer := Machine.tick o.timer }

/-- One millisecond passes at every timer and at the time base. -/
def State.advanceClocks (s : State) : State :=
  { s with
    timeBase := s.timeBase + 1
    commit := { s.commit with pacing := tick s.commit.pacing }
    image := { s.image with windows := s.image.windows.map tick }
    roster := s.roster.map RosterEntry.tick
    join := s.join.tick
    asm := { s.asm with rollTimer := tick s.asm.rollTimer }
    timers := { s.timers with timers := s.timers.timers.map fun t => { t with clock := tick t.clock } }
    field := s.field.tick }

/-- A command whose timer has just reached its limit. -/
def dueAt (timer : Option Nat) (limit : Nat) (c : Instr) : List Instr := if timer = some limit then [c] else []

/-- The expiries of the link timers that have just reached their limits; the silence limit, the entry deadline and
the part gap are exceeded one millisecond after they are reached (R73, R85, R86, R96, R103, R104, R111, R114). -/
def linkExpiries (s : State) : List Instr :=
  dueAt s.join.listenTimer s.listenLimit .listenPeriodExpiry
    ++ dueAt s.join.answerTimer s.answerLimit .answerTimerExpiry
    ++ dueAt s.join.gapTimer s.gapLimit .partGapExpiry
    ++ dueAt s.join.holdoff s.holdoffLimit .rejoinHoldoffExpiry
    ++ s.join.stray.flatMap (fun e => dueAt (some e.2) s.strayLimit (.straySetExpiry e.1))
    ++ allStations.flatMap (fun t =>
      dueAt (s.roster.entry t).silence (s.roster.entry t).silenceLimit (.silenceLimit t)
        ++ dueAt (s.roster.entry t).deadline (s.roster.entry t).deadlineLimit (.entryDeadline t))
    ++ (if s.lifecycle = .active then dueAt s.asm.rollTimer s.ownPeriod .rollcallDue else [])
    ++ dueAt s.commit.pacing s.setup.pacingGap .pacingGap

/-- The expiries of the local timers that have just reached their limits (R13, R136, R146, R152). -/
def localExpiries (s : State) : List Instr :=
  s.image.windows.zipIdx.flatMap (fun (w, i) => dueAt w Config.pulseWindow (.pulseWindowExpiry (224 + i)))
    ++ (List.finRange 16).flatMap (fun n =>
      dueAt ((s.timers.timers.getD n.val TimerState.initial).clock) (s.setup.timer n.val).base (.unitExpiry n))
    ++ (List.finRange 16).flatMap (fun n =>
      dueAt ((s.field.inputs.getD n.val (FieldInput.resetWith false)).run) (s.setup.filter n.val) (.filterRunExpiry n))
    ++ (List.finRange 12).flatMap fun n =>
      let o := s.field.outputs.getD n.val (FieldOutput.resetWith false)
      dueAt o.timer (s.setup.output n.val).settle
        (if o.phase = .settling then .settleTimerExpiry n else .mismatchTimerExpiry n)

/-- R46: a millisecond without a frame on the medium is more than ten recessive cell times. -/
def idleExpiry (s : State) : List Instr :=
  if s.commit.reception = none && s.commit.flight = none && !s.commit.idleReached then [.idleReached] else []

/-- Expiries of one moment reach the queue in any order (log 27). -/
def queueInAnyOrder : Nat → List Instr → State → State
  | 0, _, s => s
  | n + 1, due, s =>
    let (k, s) := s.draw due.length
    match due[k]? with
    | some c => queueInAnyOrder n (due.eraseIdx k) { s with pending := s.pending ++ [c] }
    | none => s

/-- One millisecond; while the station is held in reset its time base stands (log 8). -/
def State.millisecond (s : State) : State :=
  if s.loader.held then s
  else
    let s := s.advanceClocks
    let due := idleExpiry s ++ linkExpiries s ++ localExpiries s
    queueInAnyOrder due.length due s

end Sys2Proof.Machine
end

