-- ==== Sys2Proof/Machine/Dispatch.lean ====
section
/-! DEFINITION. One arm per command: the meaning of each row of spec/opcode_table.json. -/

namespace Sys2Proof.Machine

def exec (i : Instr) (s : State) : Host.Outcome State Fault Refusal :=
  match i with
  | .powerOnReset => Sys2Proof.Machine.execPowerOnReset s
  | .resetLineAssertion => Sys2Proof.Machine.execResetLineAssertion s
  | .resetRelease straps => Sys2Proof.Machine.execResetRelease straps s
  | .configurationRead answer => Sys2Proof.Machine.execConfigurationRead answer s
  | .idleReached => Sys2Proof.Machine.execIdleReached s
  | .frameStart => Sys2Proof.Machine.execFrameStart s
  | .arbitrationLost => Sys2Proof.Machine.execArbitrationLost s
  | .abort => Sys2Proof.Machine.execAbort s
  | .frameIncomplete => Sys2Proof.Machine.execFrameIncomplete s
  | .veto cells => Sys2Proof.Machine.execVeto cells s
  | .loss sender target => Sys2Proof.Machine.execLoss sender target s
  | .release sender target => Sys2Proof.Machine.execRelease sender target s
  | .join sender respondent period => Sys2Proof.Machine.execJoin sender respondent period s
  | .busy sender target => Sys2Proof.Machine.execBusy sender target s
  | .image sender target part body => Sys2Proof.Machine.execImage sender target part body s
  | .entry sender period items => Sys2Proof.Machine.execEntry sender period items s
  | .update sender items => Sys2Proof.Machine.execUpdate sender items s
  | .rollcall sender period => Sys2Proof.Machine.execRollcall sender period s
  | .svcRsp sender target tag status part parts payload => Sys2Proof.Machine.execSvcRsp sender target tag status part parts payload s
  | .readPoint sender target tag point => Sys2Proof.Machine.execReadPoint sender target tag point s
  | .readRoster sender target tag => Sys2Proof.Machine.execReadRoster sender target tag s
  | .readLocal sender target tag => Sys2Proof.Machine.execReadLocal sender target tag s
  | .readFault sender target tag => Sys2Proof.Machine.execReadFault sender target tag s
  | .clearFault sender target tag counts => Sys2Proof.Machine.execClearFault sender target tag counts s
  | .readCapture sender target tag first count => Sys2Proof.Machine.execReadCapture sender target tag first count s
  | .armCapture sender target tag => Sys2Proof.Machine.execArmCapture sender target tag s
  | .releaseStation sender target tag station => Sys2Proof.Machine.execReleaseStation sender target tag station s
  | .restart sender target tag => Sys2Proof.Machine.execRestart sender target tag s
  | .listenPeriodExpiry => Sys2Proof.Machine.execListenPeriodExpiry s
  | .answerTimerExpiry => Sys2Proof.Machine.execAnswerTimerExpiry s
  | .partGapExpiry => Sys2Proof.Machine.execPartGapExpiry s
  | .rejoinHoldoffExpiry => Sys2Proof.Machine.execRejoinHoldoffExpiry s
  | .straySetExpiry station => Sys2Proof.Machine.execStraySetExpiry station s
  | .silenceLimit station => Sys2Proof.Machine.execSilenceLimit station s
  | .entryDeadline station => Sys2Proof.Machine.execEntryDeadline station s
  | .rollcallDue => Sys2Proof.Machine.execRollcallDue s
  | .pacingGap => Sys2Proof.Machine.execPacingGap s
  | .pulseWindowExpiry point => Sys2Proof.Machine.execPulseWindowExpiry point s
  | .unitExpiry timer => Sys2Proof.Machine.execUnitExpiry timer s
  | .inputLineChange input level => Sys2Proof.Machine.execInputLineChange input level s
  | .filterRunExpiry input => Sys2Proof.Machine.execFilterRunExpiry input s
  | .readbackLineChange output level => Sys2Proof.Machine.execReadbackLineChange output level s
  | .settleTimerExpiry output => Sys2Proof.Machine.execSettleTimerExpiry output s
  | .mismatchTimerExpiry output => Sys2Proof.Machine.execMismatchTimerExpiry output s
  | .activity a => Sys2Proof.Machine.execActivity a s

end Sys2Proof.Machine
end

