-- ==== Sys2Proof/Safety.lean ====
section
/-! DEFINITION. What statements about the station are made of: what the taking of hand-offs leaves as it is, the
outcome of a command up to those hand-offs, and the invariants of the blocks. -/

namespace Sys2Proof.Machine

/-- Between two commands no hand-off waits. -/
def State.Quiet (s : State) : Prop := s.agenda = [] ∧ s.echoes = []

/-- `t` differs from `s` at most in what the evaluator, the timers and counters, the field outputs, capture and the
fault unit hold, in the assembler's desired values and requests, in waiting hand-offs and in the free-value
counter: the blocks that hand-offs reach (R54, R127). -/
structure Untouched (s t : State) : Prop where
  pending      : t.pending = s.pending
  lifecycle    : t.lifecycle = s.lifecycle
  timeBase     : t.timeBase = s.timeBase
  loader       : t.loader = s.loader
  commit       : t.commit = s.commit
  image        : t.image = s.image
  roster       : t.roster = s.roster
  join         : t.join = s.join
  service      : t.service = s.service
  inputs       : t.field.inputs = s.field.inputs
  lossSet      : t.asm.lossSet = s.asm.lossSet
  rollTimer    : t.asm.rollTimer = s.asm.rollTimer
  rollDue      : t.asm.rollDue = s.asm.rollDue
  joinSlot     : t.asm.joinSlot = s.asm.joinSlot
  partSlot     : t.asm.partSlot = s.asm.partSlot
  busySet      : t.asm.busySet = s.asm.busySet
  responseSlot : t.asm.responseSlot = s.asm.responseSlot
  releaseSlot  : t.asm.releaseSlot = s.asm.releaseSlot
  links        : t.asm.rows.map (fun r => (r.point, r.link, r.flying)) =
    s.asm.rows.map (fun r => (r.point, r.link, r.flying))

/-- A command's outcome: the next state is `e` once the hand-offs that wait in `e` have been taken; where none
waits it is `e` itself. -/
def SettlesTo (o : Answer) (e : State) : Prop :=
  ∃ t, o = .next t ∧ Untouched e t ∧ (e.Quiet → t = e)

/-- A command's outcome with its hand-offs named: the next state is what `e` comes to when exactly the hand-offs that
wait in `e` are taken (R127), and only the blocks that hand-offs reach differ from `e`. -/
def SettlesBy (o : Answer) (e : State) : Prop := o = .next e.finish ∧ SettlesTo o e

/-- R127, R131: place `i` of the hand-offs that wait holds `h`, and no hand-off before it passes between the same two
blocks. -/
def MayBeTaken (waiting : List HandOff) (i : Nat) (h : HandOff) : Prop :=
  waiting[i]? = some h ∧ ∀ g ∈ waiting.take i, g.channel ≠ h.channel

/-- R127, R131: `s` comes to `t` by taking hand-offs of its command, any number of them, and `n` of those that answer
them, one after the other, each leaving its list as its block takes it. -/
inductive Takes : Nat → State → State → Prop
  | done (s : State) (k : Nat) : Takes 0 s { s with freeIndex := k }
  | task {s t : State} {n : Nat} (i : Nat) (h : HandOff) (k : Nat) : MayBeTaken s.agenda i h →
      Takes n (State.takeHandOff { s with agenda := s.agenda.eraseIdx i, freeIndex := k } h) t → Takes n s t
  | echo {s t : State} {n : Nat} (i : Nat) (h : HandOff) (k : Nat) : MayBeTaken s.echoes i h →
      Takes n (State.takeHandOff { s with echoes := s.echoes.eraseIdx i, freeIndex := k } h) t → Takes (n + 1) s t

/-- R176: every block of the station is at its reset value; the pins keep their levels. -/
def HeldInReset (s : State) : Prop := s.resetBlocks = s

/-- R41, R54: a frame of another station commits, and this station, whose image is complete, accepts it. -/
structure LivePeerFrame (s : State) (f : Frame) : Prop where
  awake        : s.loader.held = false
  participates : s.lifecycle.participates = true
  complete     : s.image.standing = .complete
  notOwn       : s.commit.flownAs? f = none
  wellFormed   : s.received? f = some (.ok f)
  other        : frameSender f ≠ s.number
  accepted     : accepts s.roster f = true

/-- The commit unit after a well-formed frame of another station (R46, R57, R60). -/
def CommitUnit.afterPeer (c : CommitUnit) : CommitUnit :=
  { c with idle := 0, reception := none, pacing := none, vetoes := 0, stopped := false }

/-- R57, R60, R72, R111: what every accepted frame of a peer does to the commit unit, the stray set and the LOSS
set. -/
def State.heard (s : State) (f : Frame) : State :=
  { s with
    commit := s.commit.afterPeer
    join := { s.join with stray := eraseEntry (frameSender f) s.join.stray }
    asm := { s.asm with lossSet := eraseStation (frameSender f) s.asm.lossSet } }

/-- R102: the snapshot that stays once this station owes `y` no image: one for another joiner does. -/
def snapshotWithout (s : State) (y : Station) : Option Snapshot := s.join.snapshot.filter fun sn => sn.joiner ≠ y

/-- R102: the respondent slot once this station owes `y` no image: a part for another joiner stays. -/
def partSlotWithout (s : State) (y : Station) : Bool :=
  s.asm.partSlot && !(s.join.snapshot.any fun sn => sn.joiner = y)

/-- R74: a frame in flight stays in flight; its claim may have been withdrawn. -/
def FlightKept (s e : State) : Prop :=
  (s.commit.flight = none → e.commit.flight = none) ∧
  ∀ fl, s.commit.flight = some fl →
    ∃ w, e.commit.flight = some { fl with withdrawn := w } ∧ (fl.withdrawn = true → w = true)

/-- R43, R53: this station's own frame in flight, well-formed in its range, with no veto against it. -/
structure OwnFrame (s : State) (fl : Flight) : Prop where
  awake    : s.loader.held = false
  inFlight : s.commit.flight = some fl
  sender   : frameSender fl.frame = s.number

/-- R165: a service request of an ACTIVE peer reaches this ACTIVE station. -/
def TakesRequest (s : State) (requester : Station) (tag : Byte) (request : Request) : Prop :=
  s.lifecycle = .active ∧ LivePeerFrame s (.svcReq requester s.number tag request)

/-- R46, R57, R58, R95: the ranges of the counts of the commit unit and of the attempt count. -/
structure CountsInRange (s : State) : Prop where
  idle     : s.commit.idle ≤ 10
  vetoes   : s.commit.vetoes ≤ 3
  failures : s.commit.failures ≤ 7
  attempts : s.join.attempts ≤ 3

/-- R94: the image standings that a lifecycle state may hold. -/
def standingAllowed (life : Lifecycle) (standing : Standing) : Bool :=
  match life, standing with
  | .listen, .none => true
  | .listen, .founding => true
  | .joining, .none => true
  | .joining, .frozen => true
  | .joining, .complete => true
  | .active, .complete => true
  | .start, .none => true
  | .configFault, .none => true
  | .detached, .none => true
  | .linkFault, .none => true
  | _, _ => false

/-- R48, R56, R62, R94, R176: the image standing fits the lifecycle, a frame is in flight only on the medium, the loader
works, and the reset holds, in START only, and a frame found stopped has no record. -/
structure LifecycleFits (s : State) : Prop where
  standing : standingAllowed s.lifecycle s.image.standing = true
  flight   : s.commit.flight ≠ none → s.lifecycle.onMedium = true
  loader   : s.loader.phase ≠ .none → s.lifecycle = .start
  held     : s.loader.held = true → s.lifecycle = .start
  stopped  : s.commit.stopped = true → s.commit.reception = none

/-- R157, R161, R162: the ranges of the per-kind counts, the ring and the remaining post count. -/
structure RecordsInRange (s : State) : Prop where
  counts : s.fault.counts.length = 10 ∧ ∀ n ∈ s.fault.counts, n ≤ 255
  ring   : s.capture.ring.length ≤ 48

/-- R67, R69: the request list holds at most one pending and one in-flight entry of a point, and no point has more
than 255 pulses pending and in flight together. -/
structure RequestsInRange (l : List RequestEntry) : Prop where
  pending : ∀ p, (l.filter fun e => e.point = p && !e.flying).length ≤ 1
  flying  : ∀ p, (l.filter fun e => e.point = p && e.flying).length ≤ 1
  pulses  : ∀ p, pulsesOf l p ≤ 255

/-- R67, R69, R71: the request list is in range, and its entries are in flight only while an UPDATE is. -/
structure RequestsFit (s : State) : Prop where
  range  : RequestsInRange s.asm.requests
  flight : ∀ e ∈ s.asm.requests, e.flying = true → ∃ fl, s.commit.flight = some fl ∧ fl.origin = .update

/-- R65, R72, R96, R106: the LOSS set, the joiners owed a BUSY, the candidates and the points of the contribution table
stand in ascending order, each once. -/
structure SetsAscend (s : State) : Prop where
  lossSet    : s.asm.lossSet.Pairwise (· < ·)
  busySet    : s.asm.busySet.Pairwise (· < ·)
  candidates : s.join.candidates.Pairwise (· < ·)
  rows       : (s.asm.rows.map (·.point)).Pairwise (· < ·)

/-- The parent of a gate; G0 has none (R122). -/
def parentOf (c : StationSetup) (g : Nat) : Nat := if g = 0 then 0 else (c.gate g).parent

/-- R122: the chain from gate `g` to G0 holds a gate whose enable literal reads `source`. -/
def chainReads (c : StationSetup) (g : Nat) (source : Source) : Prop :=
  ∃ k l, (parentOf c)^[k] g ≠ 0 ∧ (c.gate ((parentOf c)^[k] g)).enable = some l ∧ l.source = source

/-- What every station keeps alike: each roster entry's state and declared P, and the point records (R25). -/
def State.replica (s : State) : List (RosterState × Nat) × Image :=
  (s.roster.map fun e => (e.state, e.period), s.image.points)

end Sys2Proof.Machine
end

