-- ==== Sys2Proof/Certificates/Slice0/Obligations.lean ====
section
/-! DEFINITION. The statements about the station, one definition each; their titles and rules stand in
OBLIGATIONS.json. -/

section Statements

open Sys2Proof Sys2Proof.Machine

/-- A timer runs and has reached its limit, in milliseconds. -/
def HasReached (timer : Option Nat) (limit : Nat) : Prop := ∃ v, timer = some v ∧ limit ≤ v

/-! ### The queue and the start of a station -/

/-- The row's own form of a step: the command at the front of the queue is executed with the rest of the queue. -/
def Obligations.StepTakesFrontCommand : Prop :=
  ∀ (s : State) (c : Instr) (rest : List Instr),
    s.pending = c :: rest → step s = exec c { s with pending := rest }

/-- With an empty queue one millisecond passes (the model's choice, log 1): held in reset nothing changes (log 8);
else every clock advances and the expiries that are due join the queue in some order (log 27). R13, R46, R60, R73,
R85, R86, R96, R103, R104, R111, R114, R136, R146, R152: every timer that runs counts, and an expiry is due where its
timer stands at its limit. -/
def Obligations.EmptyQueueLetsTimePass : Prop :=
  (∀ s : State, s.pending = [] →
    (s.loader.held = true → step s = .next s) ∧
    (s.loader.held = false → ∃ (order : List Instr) (k : Nat),
      step s = .next { s.advanceClocks with pending := order, freeIndex := k } ∧
      order.Perm (idleExpiry s.advanceClocks ++ linkExpiries s.advanceClocks ++ localExpiries s.advanceClocks) ∧
      s.advanceClocks.timeBase = s.timeBase + 1)) ∧
  (∀ s : State, let next := fun (timer : Option Nat) => timer.map (· + 1)
    s.advanceClocks = { s with
      timeBase := s.timeBase + 1
      commit := { s.commit with pacing := next s.commit.pacing }
      image := { s.image with windows := s.image.windows.map next }
      roster := s.roster.map fun e => { e with silence := next e.silence, deadline := next e.deadline }
      join := { s.join with
        listenTimer := next s.join.listenTimer
        answerTimer := next s.join.answerTimer
        gapTimer := next s.join.gapTimer
        stray := s.join.stray.map fun e => (e.1, e.2 + 1)
        holdoff := next s.join.holdoff }
      asm := { s.asm with rollTimer := next s.asm.rollTimer }
      timers := { s.timers with timers := s.timers.timers.map fun u => { u with clock := next u.clock } }
      field :=
        { inputs := s.field.inputs.map fun i => { i with run := next i.run }
          outputs := s.field.outputs.map fun o => { o with timer := next o.timer } } }) ∧
  (∀ (s : State) (c : Instr), c ∈ idleExpiry s ↔
    c = .idleReached ∧ s.commit.reception = none ∧ s.commit.flight = none ∧ s.commit.idle < 10) ∧
  (∀ (s : State) (c : Instr), let p := s.setup.period
    c ∈ linkExpiries s ↔
      (c = .listenPeriodExpiry ∧ s.join.listenTimer = some (4 * p)) ∨
      (c = .answerTimerExpiry ∧ s.join.answerTimer = some (2 * p)) ∨
      (c = .partGapExpiry ∧ s.join.gapTimer = some (2 * p + 1)) ∨
      (c = .rejoinHoldoffExpiry ∧ s.join.holdoff = some (2 * p + s.number)) ∨
      (∃ x, c = .straySetExpiry x ∧ (x, 3 * p) ∈ s.join.stray) ∨
      (∃ x, isStation x = true ∧ c = .silenceLimit x ∧
        (s.roster.entry x).silence = some (3 * (s.roster.entry x).period + 1)) ∨
      (∃ x, isStation x = true ∧ c = .entryDeadline x ∧
        (s.roster.entry x).deadline = some (80 * (s.roster.entry x).period + 1)) ∨
      (c = .rollcallDue ∧ s.lifecycle = .active ∧ s.asm.rollTimer = some p) ∨
      (c = .pacingGap ∧ s.commit.pacing = some s.setup.pacingGap)) ∧
  (∀ (s : State) (c : Instr), c ∈ localExpiries s ↔
    (∃ i, c = .pulseWindowExpiry (224 + i) ∧ s.image.windows[i]? = some (some 10)) ∨
    (∃ n, c = .unitExpiry n ∧
      (s.timers.timers.getD n.val TimerState.initial).clock = some (s.setup.timer n.val).base) ∨
    (∃ n, c = .filterRunExpiry n ∧
      (s.field.inputs.getD n.val (FieldInput.resetWith false)).run = some (s.setup.filter n.val)) ∨
    (∃ n, let o := s.field.outputs.getD n.val (FieldOutput.resetWith false)
      o.timer = some (s.setup.output n.val).settle ∧
        c = if o.phase = .settling then .settleTimerExpiry n else .mismatchTimerExpiry n))

/-- R176: POWER_ON_RESET and RESET_LINE_ASSERTION take every state to the reset values, which R3, R63, R64, R78, R95,
R133, R134, R147, R155, R160 and R164 give block by block. The pins keep their levels; that the time base starts from 0
is the model's choice (log 8). While the line is low no command but its release takes the station out of the reset
state: it sends nothing, every output is OFF and the FAULT line is OFF. -/
def Obligations.ResetHoldsEveryBlock : Prop :=
  let s := State.reset
  (s.lifecycle = .start ∧ s.loader.config = none ∧
    s.commit = ⟨0, none, none, none, 0, 0, false⟩ ∧
    s.image.standing = .none ∧ (∀ w ∈ s.image.windows, w = none) ∧
    (∀ e ∈ s.roster, e.state = .absent ∧ e.period = 0) ∧
    s.join.attempts = 0 ∧ s.join.candidates = [] ∧ s.join.snapshot = none ∧ s.join.backlog = [] ∧
    s.asm.requests = [] ∧ s.asm.lossSet = [] ∧ s.asm.rollDue = false ∧ s.asm.joinSlot = none ∧
    (∀ g ∈ s.eval.gates, g = .closed) ∧ s.eval.results = [] ∧
    (∀ m ∈ s.eval.src.markers, m = false) ∧ (∀ p ∈ s.eval.src.points, p = false) ∧
    (∀ t ∈ s.timers.timers, t.value = 0 ∧ t.done = false ∧ t.phase = .idle) ∧
    (∀ c ∈ s.timers.counters, c.value = 0 ∧ c.done = false) ∧
    (∀ i ∈ s.field.inputs, i.filtered = false ∧ i.run = none) ∧
    (∀ o ∈ s.field.outputs, o.commanded = false ∧ o.hold = false ∧ o.driven = false ∧ o.phase = .off) ∧
    s.fault.record = none ∧ (∀ n ∈ s.fault.counts, n = 0) ∧ s.fault.line = false ∧
    s.capture = ⟨.off, [], 0, 0, 0, none⟩ ∧
    s.service.session = none ∧ s.service.busyList = [] ∧
    s.roster.length = 30 ∧ s.timers.timers.length = 16 ∧ s.timers.counters.length = 8 ∧
    s.field.inputs.length = 16 ∧ s.field.outputs.length = 12 ∧ s.fault.counts.length = 10) ∧
  (∀ s : State,
    let t : State :=
      { State.reset with
        pending := s.pending
        freeIndex := s.freeIndex
        loader := { Loader.reset with straps := s.loader.straps }
        field :=
          { inputs := s.field.inputs.map fun i => ⟨i.line, false, none⟩
            outputs := s.field.outputs.map fun o => ⟨false, false, false, o.readback, .off, none⟩ } }
    exec .powerOnReset s = .next t ∧ exec .resetLineAssertion s = .next t ∧ HeldInReset t) ∧
  (∀ (s : State) (c : Instr), HeldInReset s → (∀ straps, c ≠ .resetRelease straps) →
    ∃ t, exec c s = .next t ∧ HeldInReset t ∧ t.lifecycle = .start ∧ t.commit.flight = none ∧
      (∀ o ∈ t.field.outputs, o.driven = false) ∧ t.fault.line = false)

/-- R177: at the release the straps, weighted 1, 2, 4, 8 and 16, give the station number 1 to 30, and the loader asks
for the header; 0 and 31 report STATION-STRAP without a subject and lead to CONFIG-FAULT with the FAULT line ON, and
nothing is read. A release of a station that is not held has no effect. -/
def Obligations.ReleaseReadsStraps : Prop :=
  ∀ (s : State) (straps : BitVec 5),
    (s.loader.held = false → SettlesTo (exec (.resetRelease straps) s) s) ∧
    (s.loader.held = true → 1 ≤ straps.toNat ∧ straps.toNat ≤ 30 →
      SettlesTo (exec (.resetRelease straps) s)
        { s with loader :=
          { s.loader with straps := straps, number := straps.toNat, held := false, phase := .header } }) ∧
    (s.loader.held = true → straps.toNat = 0 ∨ straps.toNat = 31 →
      ∃ t, exec (.resetRelease straps) s = .next t ∧
        t.lifecycle = .configFault ∧ t.loader.config = none ∧ t.loader.phase = .none ∧ t.fault.line = true ∧
        (s.fault.record = none → t.fault.record = some ⟨.stationStrap, none, s.timeBase, s.lifecycle⟩) ∧
        (∀ r, s.fault.record = some r → t.fault.record = some r))

/-- What a load that fails leaves: CONFIG-FAULT, no configuration, FAULT line ON, and in an absent record the
CONFIG-INVALID report with its code and entry (R178, R180, R181). -/
def FailsLoad (s : State) (answer : Option (List Byte)) (code entry : Nat) : Prop :=
  ∃ t, exec (.configurationRead answer) s = .next t ∧
    t.lifecycle = .configFault ∧ t.loader.config = none ∧ t.loader.phase = .none ∧ t.fault.line = true ∧
    t.image = s.image ∧ t.roster = s.roster ∧ t.commit = s.commit ∧
    (s.fault.record = none →
      t.fault.record = some ⟨.configInvalid, some (.config code entry), s.timeBase, s.lifecycle⟩) ∧
    (∀ r, s.fault.record = some r → t.fault.record = some r)

/-- R147: an input that starts from its line with filter time `filter`. -/
def startedInput (filter : Nat) (i : FieldInput) : FieldInput :=
  if i.line = false then ⟨false, false, none⟩ else if filter = 0 then ⟨true, true, none⟩ else ⟨true, false, some 0⟩

/-- R133: the evaluator as it starts with the FAULT line at `line`. -/
def startedEvaluator (c : StationSetup) (line : Bool) : Evaluator :=
  let src := { Sources.reset with ownFault := line }
  { Evaluator.reset with
    src := src
    gates := List.replicate 9 .closed
    results := c.terms.map fun t => t.literals.all fun l => src.value l.source != l.negated
    remembered := c.terms.map fun _ => false
    triggerHanded := match c.capture.trigger with
      | some l => src.value l.source != l.negated
      | none => false
    levels := { Levels.reset with
      contribs := ((ownPoints c).filter fun p => c.terms.any fun t => t.target = .contribute p).map (·, false) } }

/-- R133, R147, R152, R164, R182: the station handed over to LISTEN with configuration `c`, the source changes of its
inputs still waiting. -/
def handedOver (s : State) (c : StationSetup) : State :=
  { s with
    lifecycle := .listen
    loader := { s.loader with phase := .none, config := some c }
    commit := { s.commit with idle := 0 }
    image := ImageBlock.reset
    roster := Roster.initial
    join := { JoinController.reset with listenTimer := some 0 }
    asm := { s.asm with rows := (ownPoints c).map fun p => ⟨p, false, false, none⟩ }
    eval := startedEvaluator c s.fault.line
    field :=
      { inputs := s.field.inputs.mapIdx fun n i => if n < 16 then startedInput (c.filter n) i else i
        outputs := s.field.outputs.mapIdx fun n o =>
          if (c.output n).check then { o with phase := .settling, timer := some 0 } else o }
    capture := if c.capture.autoArm = true ∧ s.capture.mode ≠ .frozen then { s.capture with mode := .armed }
      else s.capture
    agenda := s.agenda ++ (List.range 16).filterMap fun n =>
      match s.field.inputs[n]? with
      | some i =>
        let filtered := (startedInput (c.filter n) i).filtered
        if filtered = i.filtered then none else some (.source (.input n) filtered)
      | none => none }

/-- R178, R181, R182: three bytes whose length field lies in 168 to 872 lead to the second transfer; READ fails where
either transfer does not complete; a length outside the range fails LENGTH, and FORMAT before it where the tag is not
1; a complete block fails with the first check that it fails. That a tag other than 1 is reported only after the
second transfer is the model's choice (log 10). A block that passes every check hands the station to LISTEN: the
configuration is loaded, the idle count and the listen period start, image and roster are empty, and each own
contribution point has a row with link value OFF. The evaluator starts with every gate CLOSED, every source OFF but
OWN-FAULT, which takes the FAULT line, and the results and the trigger literal that these give (R133). Every input
starts from its line, as if it had just changed from OFF (R147), the check of an enabled output is SETTLING (R152), and
capture with auto-arm is ARMED unless it is FROZEN (R164); that this comes before the first source change of an input
is the model's choice (log 37). -/
def Obligations.ConfigurationIsReadAndHandedOver : Prop :=
  ∀ (s : State), s.loader.held = false →
    (∀ bytes : List Byte, s.loader.phase = .header → 3 ≤ bytes.length →
      168 ≤ Block.word bytes 1 → Block.word bytes 1 ≤ 872 →
        SettlesTo (exec (.configurationRead (some bytes)) s)
          { s with loader := { s.loader with phase := .body (bytes.take 3) } }) ∧
    (∀ answer, s.loader.phase = .none → SettlesTo (exec (.configurationRead answer) s) s) ∧
    (s.loader.phase = .header → FailsLoad s none 1 0) ∧
    (∀ bytes : List Byte, s.loader.phase = .header → bytes.length < 3 → FailsLoad s (some bytes) 1 0) ∧
    (∀ bytes : List Byte, s.loader.phase = .header → 3 ≤ bytes.length →
      (Block.word bytes 1 < 168 ∨ 872 < Block.word bytes 1) →
        FailsLoad s (some bytes) (if Block.at bytes 0 = 1 then 3 else 2) 0) ∧
    (∀ h, s.loader.phase = .body h → FailsLoad s none 1 0) ∧
    (∀ h bytes, s.loader.phase = .body h → bytes.length < Block.word h 1 - 3 → FailsLoad s (some bytes) 1 0) ∧
    (∀ h bytes failure, s.loader.phase = .body h → Block.word h 1 - 3 ≤ bytes.length →
      loadBlock (h ++ bytes.take (Block.word h 1 - 3)) = .error failure →
        FailsLoad s (some bytes) failure.code failure.entry) ∧
    (∀ (h bytes : List Byte) (c : StationSetup), s.loader.phase = .body h → Block.word h 1 - 3 ≤ bytes.length →
      loadBlock (h ++ bytes.take (Block.word h 1 - 3)) = .ok c →
        SettlesBy (exec (.configurationRead (some bytes)) s) (handedOver s c))

/-- R179, R180: the index range of a source. -/
def sourceInRange : Source → Prop
  | .input n => n < 16
  | .marker n => n < 32
  | .point p => p < 256
  | .timer n => n < 16
  | .counter n => n < 8
  | .peer x => 1 ≤ x ∧ x ≤ 30
  | .ownActive | .ownFault => True

/-- R122: marker `a` depends on marker `b`. -/
def dependsOn (c : StationSetup) (a b : Nat) : Prop :=
  ∃ t ∈ c.terms, t.target = .marker a ∧
    ((∃ l ∈ t.literals, l.source = .marker b) ∨ chainReads c t.gate (.marker b))

/-- R179, R180, R122: what a configuration that passes every check holds. -/
structure ConfigInRange (c : StationSetup) : Prop where
  period    : 10 ≤ c.period ∧ c.period ≤ 250
  pacing    : c.pacingGap ≤ 15
  filters   : c.filters.length = 16 ∧ ∀ x ∈ c.filters, x = 0 ∨ x = 2 ∨ x = 5 ∨ x = 12
  outputs   : c.outputs.length = 12 ∧ ∀ o ∈ c.outputs, 1 ≤ o.settle ∧ o.settle ≤ 100
  gates     : c.gates.length = 8 ∧ ∀ g ∈ c.gates, g.parent ≤ 8
  chains    : ∀ n, 1 ≤ n → n ≤ 8 → (parentOf c)^[3] n = 0
  timers    : c.timers.length = 16 ∧
    ∀ t ∈ c.timers, (t.base = 1 ∨ t.base = 10 ∨ t.base = 100) ∧ 1 ≤ t.preset ∧ t.preset ≤ 30000 ∧ t.gate ≤ 8
  counters  : c.counters.length = 8 ∧ ∀ t ∈ c.counters, 1 ≤ t.preset ∧ t.preset ≤ 65535 ∧ t.gate ≤ 8 ∧
    ∀ p, t.source = some p → 224 ≤ p ∧ p ≤ 255
  capture   : c.capture.postCount ≤ 47
  faultPoint : ∀ p, c.faultPoint = some p → p ≤ 127
  terms     : c.terms.length ≤ 64 ∧
    ∀ t ∈ c.terms, 1 ≤ t.literals.length ∧ t.literals.length ≤ 4 ∧ t.gate ≤ 8 ∧ targetAllowed c t.target = true
  ownPoints : (ownPoints c).length ≤ 12
  sources   : (∀ t ∈ c.terms, ∀ l ∈ t.literals, sourceInRange l.source) ∧
    (∀ g ∈ c.gates, ∀ l, g.enable = some l → sourceInRange l.source) ∧
    ∀ l, c.capture.trigger = some l → sourceInRange l.source
  markers   : ∀ m, ¬ Relation.TransGen (dependsOn c) m m
  references : (∀ n, n < 16 → ¬ chainReads c (c.timer n).gate (.timer n)) ∧
    ∀ n, n < 8 → ¬ chainReads c (c.counter n).gate (.counter n)

/-- R179, R180: no block meets a configuration value that it cannot take: every field is in its range, every target is
allowed, no marker depends on itself, no gate chain is too long, and no timer's or counter's gate reads its own done
state. -/
def Obligations.LoadedConfigurationIsInRange : Prop :=
  ∀ (b : Block) (c : StationSetup), loadBlock b = .ok c → ConfigInRange c

/-- R178, R179: the place of term `t`, behind the terms before it. -/
def termPlace (b : Block) : Nat → Nat
  | 0 => 164
  | t + 1 => termPlace b t + 3 + 2 * (b.at (termPlace b t + 2) % 8)

/-- R178: the head of term `t` ends before the check word, and its literal count is 1 to 4. -/
def TermFits (b : Block) (t : Nat) : Prop :=
  let literals := b.at (termPlace b t + 2) % 8
  termPlace b t + 3 ≤ b.length - 4 ∧ 1 ≤ literals ∧ literals ≤ 4

/-- R179, R180: a literal field is in range; kind 0 names no source. -/
def LiteralFits (b : Block) (place : Nat) (required : Bool) : Prop :=
  let kind := b.at place % 16
  let index := b.at (place + 1)
  b.at place / 16 % 8 = 0 ∧
    ((kind = 0 ∧ required = false) ∨ ((kind = 1 ∨ kind = 4) ∧ index < 16) ∨ (kind = 2 ∧ index < 32) ∨ kind = 3 ∨
      (kind = 5 ∧ index < 8) ∨ (kind = 6 ∧ 1 ≤ index ∧ index ≤ 30) ∨ ((kind = 7 ∨ kind = 8) ∧ index = 0))

/-- R179: every field of the entry holds a value of its range. -/
def EntryFits (b : Block) (entry : Nat) : Prop :=
  (entry = 0 → b.at 3 ≤ 3 ∧ 10 ≤ b.at 4 ∧ b.at 4 ≤ 250 ∧ b.at 5 ≤ 15) ∧
  (∀ n, n < 16 → entry = 1 + n →
    b.at (6 + n) = 0 ∨ b.at (6 + n) = 2 ∨ b.at (6 + n) = 5 ∨ b.at (6 + n) = 12) ∧
  (∀ n, n < 12 → entry = 17 + n → 1 ≤ b.at (22 + 2 * n) ∧ b.at (22 + 2 * n) ≤ 100 ∧ b.at (23 + 2 * n) < 4) ∧
  (∀ n, n < 8 → entry = 29 + n →
    LiteralFits b (46 + 4 * n) false ∧ b.at (48 + 4 * n) ≤ 8 ∧ b.at (49 + 4 * n) ≤ 1) ∧
  (∀ n, n < 16 → entry = 37 + n →
    let head := b.at (78 + 3 * n)
    head / 64 ≤ 2 ∧ head / 16 % 4 ≤ 2 ∧ head % 16 ≤ 8 ∧ 1 ≤ b.word (79 + 3 * n) ∧ b.word (79 + 3 * n) ≤ 30000) ∧
  (∀ n, n < 8 → entry = 53 + n →
    1 ≤ b.word (126 + 4 * n) ∧ b.at (128 + 4 * n) ≤ 8 ∧ (b.at (129 + 4 * n) = 0 ∨ 224 ≤ b.at (129 + 4 * n))) ∧
  (entry = 61 → LiteralFits b 158 false ∧ b.at 160 < 4 ∧ b.at 161 ≤ 47) ∧
  (∀ t, t < b.at 163 → entry = 64 + t →
    let place := termPlace b t
    b.at place ≤ 9 ∧ b.at (place + 2) / 16 ≤ 8 ∧ b.at (place + 2) / 8 % 2 = 0 ∧
      ∀ i, i < b.at (place + 2) % 8 → LiteralFits b (place + 3 + 2 * i) true)

/-- R118, R180: the range of a target, and COUNT terms for a counter without a source only. -/
def TargetFits (c : StationSetup) : Target → Prop
  | .marker n => n < 32
  | .output n => n < 12
  | .contribute p => p < 176
  | .timerCoil n | .timerReset n => n < 16
  | .countReset n => n < 8
  | .set p | .clear p => 176 ≤ p ∧ p < 224
  | .pulse p => 224 ≤ p ∧ p < 256
  | .count n => n < 8 ∧ (c.counter n).source = none

/-- R180: the own contribution points that the fault-indication point and the first `n` terms name. -/
def contributionsOf (c : StationSetup) (n : Nat) : List Point :=
  c.faultPoint.toList ++ (c.terms.take n).filterMap fun t =>
    match t.target with
    | .contribute p => some p
    | _ => none

/-- R180: entry `entry` of a block with configuration `c` fails the content check `code`. A gate is concerned by
GATE-CHAIN where its own chain does not reach G0 in three steps, the model's choice (log 13). -/
def BlockFails (b : Block) (c : StationSetup) (code entry : Nat) : Prop :=
  match code with
  | 5 => entry < 64 + b.at 163 ∧ ¬ EntryFits b entry
  | 6 => ∃ t term, entry = 64 + t ∧ c.terms[t]? = some term ∧ ¬ TargetFits c term.target
  | 7 => ∃ t, t < c.terms.length ∧ entry = 64 + t ∧ 12 < (contributionsOf c (t + 1)).dedup.length
  | 8 => entry < 32 ∧ Relation.TransGen (dependsOn c) entry entry
  | 9 => ∃ n, n < 8 ∧ entry = 29 + n ∧ (parentOf c)^[3] (n + 1) ≠ 0
  | 10 => (∃ n, n < 16 ∧ entry = 37 + n ∧ chainReads c (c.timer n).gate (.timer n)) ∨
      ∃ n, n < 8 ∧ entry = 53 + n ∧ chainReads c (c.counter n).gate (.counter n)
  | _ => False

/-- R178, R180: which check a block fails first, and the entry it names: FORMAT, CHECK-WORD, then LENGTH by the walk of
the terms, then the content checks in the order of their codes, within a code the lowest entry. A block that fails none
loads. That a walk which leaves the block, or does not end at the check word, names entry 63 is the model's choice
(log 11). -/
def Obligations.FailingBlocksReportTheirFirstCheck : Prop :=
  ∀ b : Block,
    let count := b.at 163
    let stop := b.length - 4
    let sum := ((List.range stop).map fun i => b.at i * (i + 1)).sum % 2 ^ 32
    let checkWord := 2 ^ 24 * b.at stop + 2 ^ 16 * b.at (stop + 1) + 2 ^ 8 * b.at (stop + 2) + b.at (stop + 3)
    let c := setupOf b ((List.range count).map (termPlace b))
    (b.at 0 ≠ 1 → loadBlock b = .error ⟨2, 0⟩) ∧
    (b.at 0 = 1 → checkWord ≠ sum → loadBlock b = .error ⟨4, 0⟩) ∧
    (b.at 0 = 1 → checkWord = sum →
      (64 < count → loadBlock b = .error ⟨3, 63⟩) ∧
      (∀ t, count ≤ 64 → t < count → (∀ u, u < t → TermFits b u) → ¬ TermFits b t →
        loadBlock b = .error ⟨3, if stop < termPlace b t + 3 then 63 else 64 + t⟩) ∧
      (count ≤ 64 → (∀ t, t < count → TermFits b t) → termPlace b count ≠ stop → loadBlock b = .error ⟨3, 63⟩) ∧
      (count ≤ 64 → (∀ t, t < count → TermFits b t) → termPlace b count = stop →
        (∀ code entry, BlockFails b c code entry → (∀ e, e < entry → ¬ BlockFails b c code e) →
          (∀ k e, k < code → ¬ BlockFails b c k e) → loadBlock b = .error ⟨code, entry⟩) ∧
        ((∀ code entry, ¬ BlockFails b c code entry) → loadBlock b = .ok c)))

/-! ### The medium, sending and outcomes -/

/-- R46, R60, R73, R111: IDLE_REACHED makes the idle count ten cell times, after which the next frame is no longer one
found stopped (read from R46: log 41), PACING_GAP ends pacing, ROLLCALL_DUE makes a ROLLCALL due while ACTIVE, and
STRAY_SET_EXPIRY takes its member out of the stray set; nothing else changes. That IDLE_REACHED leaves a record still
held as it is, is the model's choice (log 42). R96, R103, R104, R114: no expiry of these timers, of the listen period,
the answer timer, the part gap or the rejoin holdoff happens where its timer does not stand at its limit: it has been
stopped, or started again, by a command before. -/
def Obligations.LinkTimersAct : Prop :=
  ∀ (s : State) (x : Station), let p := s.setup.period
    (s.loader.held = false →
      SettlesTo (exec .idleReached s) { s with commit := { s.commit with idle := 10, stopped := false } }) ∧
    (s.loader.held = true → SettlesTo (exec .idleReached s) s) ∧
    (HasReached s.commit.pacing s.setup.pacingGap →
      SettlesTo (exec .pacingGap s) { s with commit := { s.commit with pacing := none } }) ∧
    (¬ HasReached s.commit.pacing s.setup.pacingGap → SettlesTo (exec .pacingGap s) s) ∧
    (s.lifecycle = .active → HasReached s.asm.rollTimer p →
      SettlesTo (exec .rollcallDue s) { s with asm := { s.asm with rollDue := true } }) ∧
    ((s.lifecycle ≠ .active ∨ ¬ HasReached s.asm.rollTimer p) → SettlesTo (exec .rollcallDue s) s) ∧
    (HasReached (entryOf? x s.join.stray) (3 * p) →
      SettlesTo (exec (.straySetExpiry x) s)
        { s with join := { s.join with stray := s.join.stray.filter fun e => e.1 ≠ x } }) ∧
    (¬ HasReached (entryOf? x s.join.stray) (3 * p) → SettlesTo (exec (.straySetExpiry x) s) s) ∧
    ((s.lifecycle ≠ .listen ∨ ¬ HasReached s.join.listenTimer (4 * p)) → SettlesTo (exec .listenPeriodExpiry s) s) ∧
    ((s.lifecycle ≠ .joining ∨ ¬ HasReached s.join.answerTimer (2 * p)) → SettlesTo (exec .answerTimerExpiry s) s) ∧
    ((s.lifecycle ≠ .joining ∨ ¬ HasReached s.join.gapTimer (2 * p + 1)) → SettlesTo (exec .partGapExpiry s) s) ∧
    ((s.lifecycle ≠ .detached ∨ ¬ HasReached s.join.holdoff (2 * p + s.number)) →
      SettlesTo (exec .rejoinHoldoffExpiry s) s)

/-- R62: what a station needs to open or join a start cell. -/
def MayStart (s : State) : Prop :=
  10 ≤ s.commit.idle ∧ s.commit.flight = none ∧ s.commit.pacing = none ∧
    (s.lifecycle = .listen ∨ s.lifecycle = .joining ∨ s.lifecycle = .active)

/-- R44, R61, R62, R65, R66, R71, R73: FRAME_START drives the start cell and puts the due frame into flight, with its
content fixed; an UPDATE marks what it carries, and the roll-call timer restarts. Without a chance or a due frame
nothing happens. An UPDATE carries the pending requests, oldest first, then the due LEVEL items in ascending point
number with the points' desired values, the first twelve of them; exactly the entries and rows that it carries become
in flight. -/
def Obligations.FrameStartLaunchesTheDueFrame : Prop :=
  (∀ (s : State),
    (∀ f origin, MayStart s → dueFrame? s = some (f, origin) →
      s.drivesStart = [drivenStart s.cellTime] ∧
      ∃ k, SettlesTo (exec .frameStart s)
        { s with
          commit := { s.commit with
            idle := 0
            reception := some []
            flight := some ⟨f, origin, false⟩
            stopped := false }
          asm :=
            let a := if origin = .update then s.asm.startUpdate s.setup.faultPoint else s.asm
            { a with rollTimer := if timesRollCall s f then some 0 else s.asm.rollTimer }
          freeIndex := k }) ∧
    ((¬ MayStart s ∨ dueFrame? s = none) → s.drivesStart = [] ∧ SettlesTo (exec .frameStart s) s) ∧
    (∀ f, dueFrame? s = some (f, .update) → f = .update s.number (updateItems s.asm s.setup.faultPoint))) ∧
  (∀ (a : Assembler) (faultPoint : Option Point), (a.rows.map (·.point)).Pairwise (· < ·) →
    let desired := fun (r : ContributionRow) => r.terms || (a.faultPart && faultPoint = some r.point)
    let due := fun (r : ContributionRow) => r.flying = none && desired r ≠ r.link
    let asked := fun (l : List RequestEntry) => l.filter fun e => !e.flying
    let request := fun (e : RequestEntry) =>
      match e.wish with
      | .set => Item.set e.point
      | .clear => Item.clear e.point
      | .pulses n => Item.pulse e.point n
    let b := a.startUpdate faultPoint
    (∀ r, r.desired faultPoint a.faultPart = desired r) ∧
    updateItems a faultPoint =
      ((asked a.requests).map request ++ (a.rows.filter due).map fun r => Item.level r.point (desired r)).take 12 ∧
    b = { a with requests := b.requests, rows := b.rows } ∧
    b.requests.length = a.requests.length ∧ b.rows.length = a.rows.length ∧
    (∀ i e, a.requests[i]? = some e → b.requests[i]? =
      some (if e.flying = false ∧ (asked (a.requests.take i)).length < 12 then { e with flying := true } else e)) ∧
    (∀ i r, a.rows[i]? = some r → b.rows[i]? =
      some (if due r = true ∧ (asked a.requests).length + ((a.rows.take i).filter due).length < 12
        then { r with flying := some (desired r) } else r)))

/-- R75: the kinds that each lifecycle state may send, by rank. -/
def mayCarry (life : Lifecycle) (rank : Nat) : Bool :=
  match life with
  | .listen => rank = 2
  | .joining => rank = 2 || rank = 5
  | .active => rank = 0 || rank = 1 || rank = 3 || rank = 4 || rank = 6 || rank = 7 || rank = 9
  | .start | .configFault | .detached | .linkFault => false

/-- R72 to R75: the frame chosen is of a kind that the lifecycle allows, carries this station's number, and no due
frame has a lower rank; a LOSS names the lowest-numbered member of the LOSS set, a BUSY the lowest-numbered joiner
that is owed one, a ROLLCALL this station's own P, a RELEASE the station of its slot, and an IMAGE the next part of the
snapshot (R101). A SVC-RSP carries the requester, the tag, the part number and the part count of the session, or for a
BUSY answer its requester and tag, status BUSY, part 1 of 1 and no payload (R167, R168). Where a claim stands, a frame
is due. -/
def Obligations.LowestRankIsChosen : Prop :=
  ∀ (s : State), SetsAscend s →
    (∀ (f : Frame) (origin : Origin), dueFrame? s = some (f, origin) →
      mayCarry s.lifecycle (frameRank f) = true ∧ frameSender f = s.number ∧
      (s.lifecycle = .active → ∀ g o, some (g, o) ∈ activeClaims s → frameRank f ≤ frameRank g) ∧
      (∀ x y, f = .loss x y → y ∈ s.asm.lossSet ∧ ∀ z ∈ s.asm.lossSet, y ≤ z) ∧
      (∀ x y, f = .busy x y → origin = .busy y ∧ y ∈ s.asm.busySet ∧ ∀ z ∈ s.asm.busySet, y ≤ z) ∧
      (∀ x p, f = .rollcall x p → origin = .rollcall ∧ s.asm.rollDue = true ∧ p = s.setup.period) ∧
      (∀ x y, f = .release x y → origin = .release ∧ s.asm.releaseSlot = some y) ∧
      (∀ x y k body, f = .image x y k body → origin = .part ∧ s.asm.partSlot = true ∧
        ∃ sn, s.join.snapshot = some sn ∧ y = sn.joiner ∧ k = sn.next ∧ body = snapshotPart sn k) ∧
      (∀ x y tag status k n payload, f = .svcRsp x y tag status k n payload →
        (s.asm.responseSlot = some (.busyAnswer y) ∧ origin = .busyAnswer y ∧ (y, tag) ∈ s.service.busyList ∧
          status = .busy ∧ k = 1 ∧ n = 1 ∧ payload = []) ∨
        (s.asm.responseSlot = some .sessionPart ∧ ∃ ss, s.service.session = some ss ∧
          origin = .sessionPart (ss.request = .restart) ∧ y = ss.requester ∧ tag = ss.tag ∧ k = ss.next ∧
          n = ss.parts ∧ (status, payload) = responsePart s ss k))) ∧
    (s.lifecycle = .active →
      (s.asm.lossSet ≠ [] ∨ s.asm.releaseSlot ≠ none ∨ s.asm.busySet ≠ [] ∨
        (s.asm.partSlot = true ∧ s.join.snapshot ≠ none) ∨
        (∃ e ∈ s.asm.requests, e.flying = false) ∨
        (∃ r ∈ s.asm.rows, r.flying = none ∧ r.desired s.setup.faultPoint s.asm.faultPart ≠ r.link) ∨
        s.asm.rollDue = true ∨
        (s.asm.responseSlot = some .sessionPart ∧ s.service.session ≠ none) ∨
        (∃ x tag, s.asm.responseSlot = some (.busyAnswer x) ∧ (x, tag) ∈ s.service.busyList)) →
      dueFrame? s ≠ none) ∧
    (s.lifecycle = .listen → s.asm.joinSlot = some .join →
      dueFrame? s = some (.join s.number s.join.choice s.setup.period, .joinSlot)) ∧
    (s.lifecycle = .joining → s.asm.joinSlot = some .entry →
      dueFrame? s = some (.entry s.number s.setup.period
        (s.asm.rows.map fun r => .level r.point (r.desired s.setup.faultPoint s.asm.faultPart)), .joinSlot)) ∧
    (s.lifecycle = .joining → s.asm.joinSlot = some .join →
      dueFrame? s = some (.join s.number s.join.choice s.setup.period, .joinSlot))

/-- R66, R70: what a failed outcome leaves of the claims. -/
def failedOutcome (s : State) : State :=
  { s with
    commit := { s.commit with flight := none }
    asm := { s.asm with
      rows := s.asm.rows.map fun r => { r with flying := none }
      requests := requestsFailed s.asm.requests } }

/-- R113, R115: what a departure from the link leaves: every block takes its detach treatment, and the lifecycle is
`life`; a rejoin holdoff runs from zero at a detach only. Every gate is CLOSED and OWN-ACTIVE is OFF (R126), and an
output that is not configured HOLD is driven OFF (R149). -/
structure LeftLink (s t : State) (life : Lifecycle) (holdoff : Option Nat) : Prop where
  lifecycle : t.lifecycle = life
  commit    : t.commit = CommitUnit.reset
  image     : t.image = ImageBlock.reset
  roster    : t.roster = Roster.initial
  join      : t.join = { JoinController.reset with attempts := s.join.attempts, holdoff := holdoff }
  service   : t.service = ServiceUnit.reset
  requests  : t.asm.requests = []
  slots     : t.asm.lossSet = [] ∧ t.asm.rollTimer = none ∧ t.asm.rollDue = false ∧ t.asm.joinSlot = none ∧
    t.asm.partSlot = false ∧ t.asm.busySet = [] ∧ t.asm.responseSlot = none ∧ t.asm.releaseSlot = none
  links     : t.asm.rows.map (fun r => (r.point, r.link, r.flying)) = s.asm.rows.map fun r => (r.point, false, none)
  gates     : t.eval.src.ownActive = false ∧ ∀ g ∈ t.eval.gates, g = .closed
  outputs   : ∀ (n : Nat) (o : FieldOutput), t.field.outputs[n]? = some o → (s.setup.output n).hold = false →
    o.driven = false
  rest      : t.pending = s.pending ∧ t.timeBase = s.timeBase ∧ t.loader = s.loader ∧ t.field.inputs = s.field.inputs

/-- R113: what a detach leaves, where no RESTART session is open. -/
def Detached (s t : State) : Prop := LeftLink s t .detached (some 0)

/-- A detach whose cause is recorded where the record was absent (R113, R157). -/
def DetachesWith (c : Instr) (s : State) (cause : FaultKind) : Prop :=
  ∃ t, exec c s = .next t ∧ Detached s t ∧
    (s.Quiet → s.fault.record = none → t.fault.record = some ⟨cause, none, s.timeBase, s.lifecycle⟩) ∧
    (∀ r, s.fault.record = some r → t.fault.record = some r) ∧ t.fault.line = true

/-- R46 to R48, R55: the commit unit and the listener's activity mark once a level on the medium has left the frame in
reception as `record`, or has found it stopped where there is none. -/
def withRecord (s : State) (record : Option (List Cell)) : State :=
  { s with
    commit := { s.commit with idle := 0, reception := record, stopped := record.isNone }
    join := { s.join with
      activity := s.join.activity || (decide (s.lifecycle = .listen) && s.join.listenTimer.isSome) } }

/-- R51, R58: the sender aborts at the level that command `c` brings, after which its record is `record`. -/
def AbortsWith (c : Instr) (s : State) (record : Option (List Cell)) : Prop :=
  (s.commit.failures < 7 →
    SettlesTo (exec c s)
      { failedOutcome (withRecord s record) with commit :=
        { (withRecord s record).commit with flight := none, failures := s.commit.failures + 1 } }) ∧
  (s.commit.failures = 7 → s.service.restartOpen = false → DetachesWith c s .sendRetries)

/-- R44, R45, R49 to R52, R58, R59: ARBITRATION_LOST, in a cell of the key, and ABORT end the flight and settle its
claims; the record of the frame in reception stays. Only ABORT counts a failure, the eighth in a row detaching the
station with SEND-RETRIES. The sender drives the bit of each cell, and the marker in its slot. A cell of its own frame
that it sees has the same outcomes: a 0 seen where it sent a 1 within the nine cells of the key loses arbitration,
every other difference and a broken cell aborts; so do a second edge within a cell, a broken start cell and a cell
that does not open. The slot does not. Levels given as pulses, and the side to which the ends of the ranges belong,
are the model's choice (log 22). -/
def Obligations.FailedSendingSettles : Prop :=
  ∀ s : State,
    (s.commit.flight ≠ none → (s.commit.reception.getD []).length < 9 →
      SettlesTo (exec .arbitrationLost s) (failedOutcome s)) ∧
    (s.commit.flight = none ∨ 9 ≤ (s.commit.reception.getD []).length → SettlesTo (exec .arbitrationLost s) s) ∧
    (s.commit.flight ≠ none → s.commit.failures < 7 →
      SettlesTo (exec .abort s)
        { failedOutcome s with commit :=
          { s.commit with flight := none, failures := s.commit.failures + 1 } }) ∧
    (s.commit.flight ≠ none → s.commit.failures = 7 → s.service.restartOpen = false →
      DetachesWith .abort s .sendRetries) ∧
    (s.commit.flight = none → SettlesTo (exec .abort s) s) ∧
    (∀ (fl : Flight) (cells : List Cell) (w : Waveform), s.loader.held = false → s.commit.idle < 10 →
      s.commit.flight = some fl → s.commit.reception = some cells →
      let c : Instr := .activity (.cell w)
      let t := s.cellTime
      let edge := w.first.edge
      (∀ sent, (encodeFrame fl.frame)[cells.length]? = some sent →
        let x := readCell t w
        let seen := withRecord s (some (cells ++ [x]))
        let lost := cells.length < 9 ∧ sent = true ∧ x = .bit false
        (∀ marked, s.drives marked = [drivenBit t sent]) ∧
        (eighths t 7 ≤ edge → edge ≤ eighths t 9 →
          (x = .bit sent → SettlesTo (exec c s) seen) ∧
          (lost → SettlesTo (exec c s) (failedOutcome seen)) ∧
          (x ≠ .bit sent → ¬ lost → AbortsWith c s (some (cells ++ [x])))) ∧
        (eighths t 9 < edge → AbortsWith c s (if edge ≤ eighths t 11 then some cells else none))) ∧
      (cells.length = (encodeFrame fl.frame).length →
        (∀ marked, s.drives marked = [slotMarker t]) ∧
        (eighths t 9 < edge → edge ≤ eighths t 11 → SettlesTo (exec c s) (withRecord s (some cells)))) ∧
      (edge < eighths t 7 → cells ≠ [] ∨ edge ≠ 0 → AbortsWith c s (some (cells.dropLast ++ [.broken]))) ∧
      (edge = 0 → cells = [] → startRecord t w ≠ [] → AbortsWith c s (some [.broken])) ∧
      (edge = 0 → cells = [] → startRecord t w = [] → SettlesTo (exec c s) (withRecord s (some []))))

/-- R66, R69, R70: at a failed outcome no pulse is lost, nothing stays in flight, and a held request in flight gives
way to a pending one of its point, which stays as it is. Every entry that stays keeps its own place in the list: one
in flight becomes pending there, and pulses merge at the place of the entry in flight. At COMMITTED every entry in
flight leaves, the pending ones keep their order, and the link values become the values carried. -/
def Obligations.OutcomesSettleTheClaims : Prop :=
  ∀ (l : List RequestEntry) (rows : List ContributionRow), RequestsInRange l →
    (∃ settled : RequestEntry → Option RequestEntry, requestsFailed l = l.filterMap settled ∧
      ∀ e ∈ l,
        (e.flying = true → (∀ f ∈ l, f.point = e.point → f.flying = true) →
          settled e = some { e with flying := false }) ∧
        (e.flying = false → (∀ f ∈ l, f.point = e.point → f.flying = false) → settled e = some e) ∧
        ∀ f ∈ l, f.point = e.point → f.flying ≠ e.flying →
          (∀ n k, e.wish = .pulses n → f.wish = .pulses k →
            settled e = if e.flying then some ⟨e.point, .pulses (n + k), false⟩ else none) ∧
          ((e.wish = .set ∨ e.wish = .clear) → (f.wish = .set ∨ f.wish = .clear) →
            settled e = if e.flying then none else some e)) ∧
    (∀ p, pulsesOf (requestsFailed l) p = pulsesOf l p) ∧
    (∀ e ∈ requestsFailed l, e.flying = false) ∧
    (∀ e ∈ l, e.flying = true → pendingOf? l e.point = none → { e with flying := false } ∈ requestsFailed l) ∧
    (∀ e ∈ l, e.flying = false → flyingOf? l e.point = none → e ∈ requestsFailed l) ∧
    (∀ e ∈ requestsFailed l, ∀ f ∈ requestsFailed l, e.point = f.point → e.wish = f.wish) ∧
    (∀ e ∈ l, ∀ f ∈ l, e.flying = true → f.flying = false → e.point = f.point → (e.wish = .set ∨ e.wish = .clear) →
      f ∈ requestsFailed l ∧ ∀ g ∈ requestsFailed l, g.point = f.point → g = f) ∧
    (∀ e ∈ l, ∀ f ∈ l, ∀ n k, e.flying = true → f.flying = false → e.point = f.point → e.wish = .pulses n →
      f.wish = .pulses k → ⟨e.point, .pulses (n + k), false⟩ ∈ requestsFailed l ∧
        ∀ g ∈ requestsFailed l, g.point = f.point → g = ⟨e.point, .pulses (n + k), false⟩) ∧
    requestsCommitted l = l.filter (fun e => !e.flying) ∧
    (rowsCommitted rows).map (fun r => (r.point, r.terms, r.link, r.flying)) =
      rows.map fun r => (r.point, r.terms, r.flying.getD r.link, none)

/-- R68, R69: an edge request at the assembler. A SET or CLEAR, and a PULSE, joins the end of the list where its point
has no pending entry; a pending entry takes the requested kind, or one pulse more, in its place. Entries in flight
stay. A PULSE for a point with 255 pulses is dropped and reported as PULSE-OVERFLOW with the point. -/
def Obligations.EdgeRequestsReachTheList : Prop :=
  ∀ (s : State) (p : Point) (on : Bool), RequestsInRange s.asm.requests →
    let l := s.asm.requests
    let put := fun (l' : List RequestEntry) => { s with asm := { s.asm with requests := l' } }
    let held : EdgeRequest := ⟨p, if on then .set else .clear⟩
    let wish : Wish := if on then .set else .clear
    ((∀ e ∈ l, e.point = p → e.flying = true) →
      s.takeEdgeRequest held = put (l ++ [⟨p, wish, false⟩]) ∧
      (pulsesOf l p < 255 → s.takeEdgeRequest ⟨p, .pulse⟩ = put (l ++ [⟨p, .pulses 1, false⟩]))) ∧
    (∀ before after e, l = before ++ e :: after → e.point = p → e.flying = false →
      s.takeEdgeRequest held = put (before ++ { e with wish := wish } :: after) ∧
      (∀ n, e.wish = .pulses n → pulsesOf l p < 255 →
        s.takeEdgeRequest ⟨p, .pulse⟩ = put (before ++ { e with wish := .pulses (n + 1) } :: after))) ∧
    (pulsesOf l p = 255 →
      s.takeEdgeRequest ⟨p, .pulse⟩ = s.report .pulseOverflow (some (.point p)) ∧
      (s.takeEdgeRequest ⟨p, .pulse⟩).asm.requests = l ∧
      (s.fault.record = none → (s.takeEdgeRequest ⟨p, .pulse⟩).fault.record =
        some ⟨.pulseOverflow, some (.point p), s.timeBase, s.lifecycle⟩))

/-- R44, R45: what a receiver reads from a level, at cell time `t`. A cell is broken by its pulse's end before ⅛T,
between ⅜T and ⅝T, or after ⅞T, or by a second edge, and a start cell by an end before ⅝T; otherwise a short pulse is a
1 and a long one a 0. What one sender drives is read as it was sent, and two senders' bits as the 0 of either. An end at
⅛T, ⅜T, ⅝T or ⅞T itself is counted to the clean cell: the model's choice (log 22). -/
def CellsAreReadByShape (t : Nat) : Prop :=
  (∀ w : Waveform,
    let n := w.first.length
    let bad := n < eighths t 1 ∨ (eighths t 3 < n ∧ n < eighths t 5) ∨ eighths t 7 < n ∨
      ∃ p ∈ w.others, p.edge < w.first.edge + eighths t 7
    (bad → readCell t w = .broken) ∧
    (¬ bad → n ≤ eighths t 3 → readCell t w = .bit true) ∧
    (¬ bad → eighths t 5 ≤ n → readCell t w = .bit false) ∧
    (bad ∨ n < eighths t 5 → startRecord t w = [.broken]) ∧
    (¬ bad → eighths t 5 ≤ n → startRecord t w = [])) ∧
  (∀ (edge : Nat) (b c : Bool),
    readCell t ⟨⟨edge, (drivenBit t b).length⟩, []⟩ = .bit b ∧
    readCell t ⟨⟨edge, max (drivenBit t b).length (drivenBit t c).length⟩, []⟩ = .bit (b && c) ∧
    startRecord t ⟨⟨edge, (drivenStart t).length⟩, []⟩ = [])

/-- R44 to R48, R55, R60: what is seen on the medium. A frame that stops is discarded, changes neither count and stays
found stopped (log 41); MalformedFrameIsVetoed and VetoedSlotMovesTheCounts say that nothing of it is taken then. A
dominant level restarts the idle count. After idle it opens a start cell: the record begins empty, or with a broken
start cell, and pacing ends. Before idle a level within ⅛T of the moment at which an opening is due is the next cell,
read by its pulse; an earlier one breaks the cell before, one by ⅜T marks the check slot, and a later one finds the
frame stopped. What it means to the sender of that frame stands in FailedSendingSettles. A listener notes activity. That
edges at the two ends of each range belong to it is the model's choice (log 22). -/
def Obligations.MediumIsFollowed : Prop :=
  (∀ rate : BitRate, CellsAreReadByShape rate.cellTime) ∧
  ∀ (s : State) (a : Activity), s.loader.held = false →
    let listened := { s.join with
      activity := s.join.activity || (decide (s.lifecycle = .listen) && s.join.listenTimer.isSome) }
    SettlesTo (exec .frameIncomplete s)
      { s with commit := { s.commit with idle := 0, reception := none, stopped := true }, join := listened } ∧
    (10 ≤ s.commit.idle → s.lifecycle.onMedium = true →
      SettlesTo (exec (.activity a) s)
        { s with
          commit := { s.commit with
            idle := 0
            pacing := none
            reception := some (match a with
              | .cell w => startRecord s.cellTime w
              | .startCell | .level => [])
            stopped := false }
          join := listened }) ∧
    (∀ w cells, s.commit.idle < 10 → a = .cell w → s.commit.reception = some cells → s.commit.flight = none →
      let t := s.cellTime
      let edge := w.first.edge
      SettlesTo (exec (.activity a) s)
        (withRecord s
          (if cells = [] ∧ edge = 0 then some (startRecord t w)
          else if edge < eighths t 7 then some (cells.dropLast ++ [.broken])
          else if edge ≤ eighths t 9 then some (cells ++ [readCell t w])
          else if edge ≤ eighths t 11 then some cells
          else none))) ∧
    (s.commit.idle < 10 → a = .startCell ∨ a = .level ∨ s.commit.reception = none →
      SettlesTo (exec (.activity a) s) { s with commit := { s.commit with idle := 0 }, join := listened }) ∧
    (10 ≤ s.commit.idle → s.lifecycle.onMedium = false →
      SettlesTo (exec (.activity a) s) { s with commit := { s.commit with idle := 0 }, join := listened })

/-- R47, R48, R52: the cells on which a participating station judges the frame whose slot closes, once the levels
`cells` have joined its record; none where it has found the frame stopped, before or at one of those levels. -/
def judgedCells (s : State) (cells : List Waveform) : Option (List Cell) :=
  if s.commit.reception = none ∧ s.commit.stopped = true then none
  else takeCells s.cellTime (s.commit.reception.getD []) cells

/-- R48, R52, R53, R57, R58: a vetoed slot. A participating receiver drives a veto in a marked slot, from ½T to ⅞T, on a
malformed frame and in no other case, and the level at ¾T shows it. The sender settles VETOED and counts a failure; a
participating receiver that found the frame well-formed returns its veto count to 0, and one that vetoed counts it, the
fourth in a row detaching it with VETO-BUDGET. A receiver that has found the frame stopped neither vetoes nor counts,
whatever its lifecycle. That the command brings the levels of the cells not yet recorded, and how long a frame stays
found stopped, are the model's choices (logs 16 and 41). -/
def Obligations.VetoedSlotMovesTheCounts : Prop :=
  ∀ (s : State) (cells : List Waveform), s.loader.held = false →
    let t := s.cellTime
    let taken := judgedCells s cells
    let marker : Pulse := ⟨t + eighths t 2, eighths t 1⟩
    let veto : Pulse := ⟨t + eighths t 4, eighths t 3⟩
    slotVetoed t ⟨marker, []⟩ = false ∧ slotVetoed t ⟨marker, [veto]⟩ = true ∧
    (∀ r, s.commit.flight = none → s.commit.reception = some r → ∀ marked,
      (∀ m, marked = true → s.lifecycle.participates = true → judgeCells r = .error m →
        s.drives marked = [⟨eighths t 4, eighths t 3⟩]) ∧
      (marked = false ∨ s.lifecycle.participates = false ∨ (∃ f, judgeCells r = .ok f) → s.drives marked = [])) ∧
    (s.commit.reception = none → ∀ marked, s.drives marked = []) ∧
    (s.lifecycle.onMedium = true → s.commit.flight ≠ none → s.commit.failures < 7 →
      SettlesTo (exec (.veto cells) s)
        { failedOutcome s with commit :=
          { s.commit with
            idle := 0
            reception := none
            flight := none
            failures := s.commit.failures + 1
            stopped := false } }) ∧
    (s.lifecycle.onMedium = true → s.commit.flight ≠ none → s.commit.failures = 7 → s.service.restartOpen = false →
      DetachesWith (.veto cells) s .sendRetries) ∧
    (∀ r f, s.lifecycle.participates = true → s.commit.flight = none →
      taken = some r → judgeCells r = .ok f →
        SettlesTo (exec (.veto cells) s) { s with commit := s.commit.afterPeer }) ∧
    (∀ r m, s.lifecycle.participates = true → s.commit.flight = none → s.commit.vetoes < 3 →
      taken = some r → judgeCells r = .error m →
        SettlesTo (exec (.veto cells) s)
          { s with commit := { s.commit.afterPeer with vetoes := s.commit.vetoes + 1 } }) ∧
    (∀ r m, s.lifecycle.participates = true → s.commit.flight = none → s.commit.vetoes = 3 →
      s.service.restartOpen = false → taken = some r → judgeCells r = .error m →
        DetachesWith (.veto cells) s .vetoBudget) ∧
    (s.lifecycle.participates = true → s.commit.flight = none → taken = none →
      SettlesTo (exec (.veto cells) s)
        { s with commit := { s.commit with idle := 0, reception := none, pacing := none, stopped := false } }) ∧
    (s.lifecycle = .listen → s.commit.flight = none →
      SettlesTo (exec (.veto cells) s)
        { s with
          commit := { s.commit with idle := 0, reception := none, pacing := none, stopped := false }
          join := { s.join with activity := s.join.activity || s.join.listenTimer.isSome } })

/-! ### Commits of frames -/

/-- R56: a station in START, CONFIG-FAULT, DETACHED or LINK-FAULT opens and joins no start cell and drives no key,
marker or veto, and no frame, committed or vetoed, and no level on the medium changes anything of it but its idle
count and its record of the medium. Its idle count runs. -/
def Obligations.StationOutsideTakesNothing : Prop :=
  ∀ (s : State) (c : Instr) (a : Activity), s.loader.held = false → LifecycleFits s →
    (s.lifecycle = .start ∨ s.lifecycle = .configFault ∨ s.lifecycle = .detached ∨ s.lifecycle = .linkFault) →
      ((∃ f, c.frame? = some f) ∨ (∃ cells, c = .veto cells) →
        ∃ stop, SettlesTo (exec c s)
          { s with commit := { s.commit with idle := 0, reception := none, stopped := stop } }) ∧
      SettlesTo (exec .frameStart s) s ∧
      s.drivesStart = [] ∧ (∀ marked, s.drives marked = []) ∧
      (∃ r stop, SettlesTo (exec (.activity a) s)
        { s with commit := { s.commit with idle := 0, reception := r, stopped := stop } }) ∧
      (∃ stop, SettlesTo (exec .frameIncomplete s)
        { s with commit := { s.commit with idle := 0, reception := none, stopped := stop } }) ∧
      ∃ r stop, SettlesTo (exec .idleReached s)
        { s with commit := { s.commit with idle := 10, reception := r, stopped := stop } }

/-- R40, R45 to R48, R52, R55, R57: the frame of another sender that this station finds malformed has no effect but
the veto: the veto count rises, or the fourth veto in a row detaches the station; a listener only notes activity, and
so it does for a frame whose start cell it has not seen. A frame that this station has found stopped is taken by no
block and changes no count, whatever its bits and the lifecycle (R48). A frame is malformed by its fields, and, where
cells of it were recorded, by a broken cell or by bits that do not decode to its end. That a command may bring the rest
of a frame, or the whole of it, without its cells is the model's choice (log 15), and so is how long a frame stays found
stopped (log 41). -/
def Obligations.MalformedFrameIsVetoed : Prop :=
  ∀ (s : State) (c : Instr) (f : Frame), c.frame? = some f → s.loader.held = false →
    s.commit.flownAs? f = none →
      (∀ m, s.received? f = some (.error m) →
        (s.lifecycle.participates = true → s.commit.vetoes < 3 →
          SettlesTo (exec c s) { s with commit := { s.commit.afterPeer with vetoes := s.commit.vetoes + 1 } }) ∧
        (s.lifecycle.participates = true → s.commit.vetoes = 3 → s.service.restartOpen = false →
          DetachesWith c s .vetoBudget) ∧
        (s.lifecycle = .listen →
          SettlesTo (exec c s)
            { s with
              commit := { s.commit with idle := 0, reception := none, pacing := none, stopped := false }
              join := { s.join with activity := s.join.activity || s.join.listenTimer.isSome } })) ∧
      (s.lifecycle.onMedium = true → s.commit.reception = none →
        s.commit.stopped = true ∨ s.lifecycle = .listen ∧ s.commit.idle < 10 →
          SettlesTo (exec c s)
            { s with
              commit := { s.commit with idle := 0, reception := none, stopped := false }
              join := { s.join with
                activity := s.join.activity || (decide (s.lifecycle = .listen) && s.join.listenTimer.isSome) } }) ∧
      (s.commit.reception ≠ none ∨
          s.commit.stopped = false ∧ (s.lifecycle.participates = true ∨ 10 ≤ s.commit.idle) →
        let cells := s.commit.reception.getD []
        (frameOk f = false → ∃ m, s.received? f = some (.error m)) ∧
        (frameOk f = true → cells = [] → s.received? f = some (.ok f)) ∧
        (.broken ∈ cells → ∃ m, s.received? f = some (.error m)) ∧
        (∀ bits g, frameOk f = true → cells = bits.map .bit → bits ≠ [] →
          (s.received? f = some (.ok g) ↔ decodeFrame (bits ++ (encodeFrame f).drop bits.length) = .ok g)))

/-- R43, R113, R115: a well-formed frame with this station's number that it did not send leads to LINK-FAULT with
DUPLICATE-STATION: every block leaves the link as at a detach, and no rejoin holdoff runs. R41, R54, R57, R111, R112: a
well-formed frame that is ignored because its sender is JOINING changes nothing but the veto count and the medium's
timing. An ignored frame of an ABSENT or LOST sender, not a JOIN, joins it to the stray set as well; where the set gains
a member and is then larger than the heard peers, the station detaches with NAMED-LOST. -/
def Obligations.DuplicateAndIgnoredFramesAreWatched : Prop :=
  ∀ (s : State) (c : Instr) (f : Frame), c.frame? = some f → s.loader.held = false →
    s.lifecycle.onMedium = true → s.commit.flownAs? f = none → s.received? f = some (.ok f) →
    (frameSender f = s.number →
      ∃ t, exec c s = .next t ∧ LeftLink s t .linkFault none ∧ t.fault.line = true ∧
        (s.fault.record = none →
          t.fault.record = some ⟨.duplicateStation, none, s.timeBase, s.lifecycle⟩) ∧
        (∀ r, s.fault.record = some r → t.fault.record = some r)) ∧
    (frameSender f ≠ s.number → s.lifecycle.participates = true → s.image.standing = .complete →
      accepts s.roster f = false →
      let x := frameSender f
      let stray := putEntry x 0 s.join.stray
      (s.roster.stateOf x = .joining → SettlesTo (exec c s) { s with commit := s.commit.afterPeer }) ∧
      (s.roster.stateOf x = .absent ∨ s.roster.stateOf x = .lost →
        ((∃ v, (x, v) ∈ s.join.stray) ∨ stray.length ≤ heardPeers s.number s.roster) →
          SettlesTo (exec c s) { s with commit := s.commit.afterPeer, join := { s.join with stray := stray } }) ∧
      (s.roster.stateOf x = .absent ∨ s.roster.stateOf x = .lost →
        (∀ v, (x, v) ∉ s.join.stray) → heardPeers s.number s.roster < stray.length →
        s.service.restartOpen = false → DetachesWith c s .namedLost))

/-- R18 to R20, R89, R90, R161: what a station hands on at an accepted frame of a peer: the source changes of its points
and of PEER, pulses, the frame's capture records where it takes them, and a period mismatch. `CommitHandsOnWhatChanged`
says what each list holds. -/
def handedOn (s : State) (f : Frame) (recorded : Bool) (image : ImageBlock) (roster : Roster) : List HandOff :=
  let records := frameRecords s.image.points f
  pointChanges s.image image f ++ peerChanges s.roster roster ++ pulseHandOffs f
    ++ (if recorded = true ∧ records ≠ [] then [.group records] else []) ++ s.mismatchReport f

/-- R8 to R12, R41, R57, R85, R87, R105, R165: the frames of an ACTIVE peer that change no roster entry's state. They
break its silence. Of an UPDATE the items are applied in frame order, and the window of each point that a PULSE names
starts from zero while every other stays; a ROLLCALL, BUSY, IMAGE or SVC-RSP changes no point. Nothing else of the
link blocks changes, and what is handed on is named. A service request stands in its own statements. -/
def Obligations.PeerFramesApplyAndBreakSilence : Prop :=
  (∀ (windows : List (Option Nat)) (items : List Item), (∀ p n, .pulse p n ∈ items → 224 ≤ p) →
    let after := startWindows windows items
    after.length = windows.length ∧
    ∀ i, i < windows.length →
      (∀ n, .pulse (224 + i) n ∈ items → after[i]? = some (some 0)) ∧
      ((∀ n, .pulse (224 + i) n ∉ items) → after[i]? = windows[i]?)) ∧
  ∀ (s : State) (x : Station),
    let heardFrom := s.roster.update x fun e => { e with silence := some 0 }
    (∀ items, LivePeerFrame s (.update x items) →
      let image := { s.image with
        points := items.foldl (applyItem x) s.image.points
        windows := startWindows s.image.windows items }
      SettlesBy (exec (.update x items) s)
        { s.heard (.update x items) with
          image := image
          roster := heardFrom
          agenda := s.agenda ++ handedOn s (.update x items) (decide (s.lifecycle = .active)) image heardFrom }) ∧
    (∀ (c : Instr) (y : Station) (p k n : Nat) (body : PartBody) (tag : Byte) (status : Status) (payload : List Byte)
      (f : Frame),
      (c = .rollcall x p ∨ c = .busy x y ∨ c = .image x y k body ∨ c = .svcRsp x y tag status k n payload) →
      c.frame? = some f → LivePeerFrame s f →
        SettlesBy (exec c s) { s.heard f with roster := heardFrom, agenda := s.agenda ++ s.mismatchReport f })

/-- R18, R19, R20, R89, R90, R161: what the commit of an accepted frame hands on. A point whose term-visible value
differs from before the frame is handed once, the points that the items name first, in the order in which each first
appears, then the others ascending; the values of all of them stand before the first is taken. A PULSE is handed to
the counters with its count. A station that has become or ceased to be ACTIVE is handed as PEER. Each item gives one
capture record with its point as the item leaves it, and an ENTRY, JOIN, LOSS or RELEASE one of its own. A declared P
other than this station's is reported with its sender. -/
def Obligations.CommitHandsOnWhatChanged : Prop :=
  (∀ (s : State) (f : Frame), let t := s.takeLiveFrame f
    t.agenda = s.agenda ++
      handedOn s f (decide (s.lifecycle = .active) && !t.isolatedSince s.roster) t.image t.roster) ∧
  (∀ (b a : ImageBlock) (f : Frame), ∃ changes : List (Point × Bool),
    pointChanges b a f =
      (if changes = [] then [] else .pointsApplied changes :: changes.map fun c => .source (.point c.1) c.2) ∧
    (∀ p v, (p, v) ∈ changes ↔ b.termVisible p ≠ a.termVisible p ∧ v = a.termVisible p) ∧
    (changes.map Prod.fst).Pairwise fun p q =>
      let named := (frameItems f).map itemPoint
      (p ∈ named ∧ q ∉ named) ∨ (p ∈ named ∧ q ∈ named ∧ named.idxOf p < named.idxOf q) ∨
        (p ∉ named ∧ q ∉ named ∧ p < q)) ∧
  (∀ f, pulseHandOffs f = (frameItems f).filterMap fun
    | .pulse p n => some (.pulse p n)
    | _ => none) ∧
  (∀ (r r' : Roster), ∃ changes : List (Station × Bool),
    peerChanges r r' = changes.map (fun c => .source (.peer c.1) c.2) ∧
    (∀ y on, (y, on) ∈ changes ↔ isStation y = true ∧
      (on = true ↔ r'.stateOf y = .active) ∧ (on = true ↔ r.stateOf y ≠ .active)) ∧
    (changes.map Prod.fst).Pairwise (· < ·)) ∧
  (∀ (m : Image) (x y k p : Nat) (items : List Item),
    frameRecords m (.join x k p) = [⟨.join, x, none, none, none⟩] ∧
    frameRecords m (.loss x y) = [⟨.loss, y, none, none, none⟩] ∧
    frameRecords m (.release x y) = [⟨.release, y, none, none, none⟩] ∧
    frameRecords m (.entry x p items) =
      ⟨.entry, x, none, none, none⟩ :: frameRecords (withdrawStation x m) (.update x items) ∧
    (frameRecords m (.update x items)).length = items.length ∧
    ∀ i item, items[i]? = some item →
      let after := (items.take (i + 1)).foldl (applyItem x) m
      (frameRecords m (.update x items))[i]? = some (match item with
        | .level q _ => ⟨.level, x, some q, some (pointValue after [] q), none⟩
        | .set q => ⟨.set, x, some q, some (after.heldRecord q).value, none⟩
        | .clear q => ⟨.clear, x, some q, some (after.heldRecord q).value, none⟩
        | .pulse q _ => ⟨.pulse, x, some q, some true, some (after.countRecord q).count⟩)) ∧
  (∀ (s : State) (f : Frame),
    (∀ x p, (f = .rollcall x p ∨ (∃ k, f = .join x k p) ∨ ∃ items, f = .entry x p items) →
      s.mismatchReport f = if p ≠ s.setup.period ∧ x ≠ s.number
        then [.report .periodMismatch (some (.station x)) s.lifecycle] else []) ∧
    ((∀ x p, f ≠ .rollcall x p ∧ (∀ k, f ≠ .join x k p) ∧ ∀ items, f ≠ .entry x p items) → s.mismatchReport f = []))

/-- R9, R10, and the record part of R11 and R12: what one item does to the record of its point, that it leaves every
other record, and what an any-class and an all-class point resolve to. -/
def Obligations.ItemsChangeTheirPoint : Prop :=
  ∀ (m : Image) (x : Station) (p : Point), m.any.length = 128 → m.all.length = 48 → m.held.length = 48 →
    m.count.length = 32 →
    (∀ on, p < 128 →
      applyItem x m (.level p on) = { m with any := m.any.set p (levelOnSet x on (m.onSet p)) } ∧
      (∀ y, y ∈ levelOnSet x on (m.onSet p) ↔ (if y = x then on = true else y ∈ m.onSet p))) ∧
    (∀ on, 128 ≤ p → p < 176 →
      applyItem x m (.level p on) =
        { m with all := m.all.set (p - 128) (putEntry x (if on then .on else .off) (m.contributors p)) } ∧
      (∀ y, entryOf? y ((applyItem x m (.level p on)).contributors p) =
        if y = x then some (if on then .on else .off) else entryOf? y (m.contributors p))) ∧
    (∀ ws, (p < 128 → (pointValue m ws p = true ↔ ∃ y, y ∈ m.onSet p)) ∧
      (128 ≤ p → p < 176 →
        (pointValue m ws p = true ↔ m.contributors p ≠ [] ∧ ∀ e ∈ m.contributors p, e.2 = .on))) ∧
    (∀ on, 176 ≤ p → p < 224 →
      let r := m.heldRecord p
      applyItem x m (if on then .set p else .clear p) =
        { m with held := m.held.set (p - 176) (if r.value = on then r else ⟨on, some x, r.changes + 1⟩) }) ∧
    (∀ n, 224 ≤ p → p < 256 →
      applyItem x m (.pulse p n) =
        { m with count := m.count.set (p - 224) ⟨(m.countRecord p).count + BitVec.ofNat 16 n, some x⟩ })

/-- R79: the entry of the station that a roster frame concerns, by its state before the commit. -/
def entryAfter (own : Station) (f : Frame) (t : Station) (e : RosterEntry) : RosterEntry :=
  match f with
  | .join s _ p => if t = s then ⟨.joining, p, none, if s = own then none else some 0⟩ else e
  | .entry s p _ => if t = s then ⟨.active, p, if s = own then none else some 0, none⟩ else e
  | .loss _ x =>
    if t = x ∧ (e.state = .active ∨ e.state = .joining) then ⟨.lost, e.period, none, none⟩ else e
  | .release _ x => if t = x ∧ e.state = .lost then { e with state := .absent, period := 0 } else e
  | _ => e

/-- R79 to R83, R85: the whole roster after an accepted live frame: the entry concerned changes by the table, the
ACTIVE sender's silence starts from zero, and every other entry stays. -/
def Obligations.RosterTable : Prop :=
  ∀ (r : Roster) (own : Station) (f : Frame) (t : Station), r.length = 30 → isStation t = true →
    accepts r f = true →
      let after := breakSilence own (frameSender f) (rosterEffect own true f r)
      let e := entryAfter own f t (r.entry t)
      after.entry t =
        if t = frameSender f ∧ t ≠ own ∧ e.state = .active then { e with silence := some 0 } else e

/-- R112: the commit has left fewer heard peers, and the stray set, without the sender, is larger than them. -/
def FallsOut (s : State) (sender : Station) (after : Roster) : Prop :=
  heardPeers s.number after < heardPeers s.number s.roster ∧
    heardPeers s.number after < (eraseEntry sender s.join.stray).length

/-- R112, R113: the command detaches the station, which keeps a present fault record and shows the FAULT line. -/
def FallsOff (c : Instr) (s : State) : Prop :=
  ∃ t, exec c s = .next t ∧ Detached s t ∧ t.fault.line = true ∧
    ∀ r, s.fault.record = some r → t.fault.record = some r

/-- R168: the response that is handed into the slot when it is empty: the oldest BUSY answer, else the session's next
part, which a releasing session does not have yet. -/
def nextResponse (v : ServiceUnit) : Option Response :=
  match v.busyList, v.session with
  | (x, _) :: _, _ => some (.busyAnswer x)
  | [], some ss => if ss.releasing then none else some .sessionPart
  | [], none => none

/-- R168, R169, R174: station `y` has left ACTIVE. Its session is abandoned, unless it is a RESTART, with a part and a
RELEASE of it that wait in their slots; its BUSY answer leaves the list and the slot. A slot emptied so, or empty
before, takes the next response. -/
def RequesterLeaves (s t : State) (y : Station) : Prop :=
  let gone := ∃ ss, s.service.session = some ss ∧ ss.requester = y ∧ ss.request ≠ .restart
  let stays := (∃ z, z ≠ y ∧ s.asm.responseSlot = some (.busyAnswer z)) ∨
    (¬ gone ∧ s.asm.responseSlot = some .sessionPart)
  t.service.busyList = s.service.busyList.filter (fun e => e.1 ≠ y) ∧
  (gone → t.service.session = none ∧ t.asm.releaseSlot = none) ∧
  (¬ gone → t.service.session = s.service.session ∧ t.asm.releaseSlot = s.asm.releaseSlot) ∧
  (stays → t.asm.responseSlot = s.asm.responseSlot) ∧
  (¬ stays → t.asm.responseSlot = nextResponse t.service)

/-- R165, R169: the service unit, its two slots and the frame in flight after the commit of a frame at which `y` leaves
ACTIVE where `leaves` holds. -/
def ServiceFollows (s e : State) (y : Station) (leaves : Prop) : Prop :=
  FlightKept s e ∧ (leaves → RequesterLeaves s e y) ∧
  (¬ leaves → e.service = s.service ∧ e.asm.responseSlot = s.asm.responseSlot ∧ e.asm.releaseSlot = s.asm.releaseSlot)

/-- R14, R18, R54, R82, R90, R102, R112, R161, R169: LOSS(y) of an ACTIVE peer: y's entry and points, and y leaves the
LOSS set. Where y was ACTIVE or JOINING, a snapshot with its unsent part and a BUSY for y are dropped, while those for
another joiner stay; where y was ACTIVE, its session is abandoned. Of an ABSENT or LOST station it drops nothing. What
the commit hands on is named, and nothing else changes. Where the strays then outnumber the heard peers, which have
become fewer, the station detaches. R84: where y is this station, the LOSS detaches it with NAMED-LOST; before the image
is complete any well-formed LOSS naming it does. -/
def Obligations.LossTakesEffect : Prop :=
  (∀ (s : State) (x y : Station), LivePeerFrame s (.loss x y) → y ≠ s.number →
    let after := breakSilence s.number x (rosterEffect s.number true (.loss x y) s.roster)
    (FallsOut s x after → s.service.restartOpen = false → FallsOff (.loss x y) s) ∧
    (¬ FallsOut s x after →
      let f := Frame.loss x y
      let image := { s.image with points := frameEffect s.roster f s.image.points }
      let onLink := s.roster.stateOf y = .active ∨ s.roster.stateOf y = .joining
      ∃ e, SettlesBy (exec (.loss x y) s) e ∧ ServiceFollows s e y (s.roster.stateOf y = .active) ∧
        (onLink → y ∉ e.asm.busySet ∧ ∀ sn, e.join.snapshot = some sn → sn.joiner ≠ y) ∧
        e = { s.heard f with
          commit := { s.commit.afterPeer with flight := e.commit.flight }
          image := image
          roster := after
          join := { (s.heard f).join with snapshot := if onLink then snapshotWithout s y else s.join.snapshot }
          asm := { s.asm with
            lossSet := eraseStation y (eraseStation x s.asm.lossSet)
            partSlot := if onLink then partSlotWithout s y else s.asm.partSlot
            busySet := if onLink then eraseStation y s.asm.busySet else s.asm.busySet
            responseSlot := e.asm.responseSlot
            releaseSlot := e.asm.releaseSlot }
          service := e.service
          agenda := s.agenda ++ handedOn s f (decide (s.lifecycle = .active)) image after })) ∧
  (∀ (s : State) (x : Station), s.service.restartOpen = false →
    (LivePeerFrame s (.loss x s.number) → DetachesWith (.loss x s.number) s .namedLost) ∧
    (s.loader.held = false → s.lifecycle = .joining → s.image.standing ≠ .complete →
      s.commit.flownAs? (.loss x s.number) = none →
      s.received? (.loss x s.number) = some (.ok (.loss x s.number)) → x ≠ s.number →
        DetachesWith (.loss x s.number) s .namedLost))

/-- R14 and R17, with the JOIN and ENTRY of R15 and R16: the point effects of the roster frames, by the roster state
before the commit. An ENTRY first takes its sender out of every ON-set and every map, and leaves the other stations'
places as they are; then its items apply. A RELEASE whose target is not LOST has no roster effect either. An all-class
point is ON where its map has entries and each is ON. -/
def Obligations.RosterFramesChangePoints : Prop :=
  ∀ (r : Roster) (m : Image) (x y : Station) (k p : Nat) (items : List Item),
    (frameEffect r (.loss x y) m =
      if r.stateOf y = .active ∨ r.stateOf y = .joining then lossTreatment y m else m) ∧
    (frameEffect r (.join x k p) m =
      if r.stateOf x = .active ∨ r.stateOf x = .joining then lossTreatment x m else m) ∧
    (frameEffect r (.release x y) m = if r.stateOf y = .lost then releaseTreatment y m else m) ∧
    (frameEffect r (.entry x p items) m = items.foldl (applyItem x) (withdrawStation x m)) ∧
    (lossTreatment y m).held = m.held ∧ (lossTreatment y m).count = m.count ∧
    (∀ q, q < 128 → m.any.length = 128 → ∀ z, z ∈ (lossTreatment y m).onSet q ↔ z ∈ m.onSet q ∧ z ≠ y) ∧
    (∀ q, 128 ≤ q → q < 176 → m.all.length = 48 → ∀ z v, (z, v) ∈ (lossTreatment y m).contributors q ↔
      if z = y then v = .lostOff ∧ ∃ w, (z, w) ∈ m.contributors q else (z, v) ∈ m.contributors q) ∧
    (∀ q, 128 ≤ q → q < 176 → m.all.length = 48 → ∀ z v, (z, v) ∈ (releaseTreatment y m).contributors q ↔
      (z, v) ∈ m.contributors q ∧ ¬ (z = y ∧ v = .lostOff)) ∧
    (∀ q, q < 128 → m.any.length = 128 → ∀ z, z ∈ (withdrawStation y m).onSet q ↔ z ∈ m.onSet q ∧ z ≠ y) ∧
    (∀ q, 128 ≤ q → q < 176 → m.all.length = 48 → ∀ z v, (z, v) ∈ (withdrawStation y m).contributors q ↔
      (z, v) ∈ m.contributors q ∧ z ≠ y) ∧
    (withdrawStation y m).held = m.held ∧ (withdrawStation y m).count = m.count ∧
    (releaseTreatment y m).any = m.any ∧ (releaseTreatment y m).held = m.held ∧
    (releaseTreatment y m).count = m.count ∧
    (r.stateOf y ≠ .lost → ∀ own timed, rosterEffect own timed (.release x y) r = r) ∧
    (∀ (n : Image) ws q, 128 ≤ q → q < 176 →
      (pointValue n ws q = true ↔ n.contributors q ≠ [] ∧ ∀ e ∈ n.contributors q, e.2 = .on))

/-- R16 to R18, R54, R81, R83, R90, R102, R161: RELEASE(y) of an ACTIVE peer takes y's standing and LOST-OFF entries,
and nothing else. ENTRY of a JOINING or ACTIVE peer: it becomes ACTIVE with its declared P, its contributions are
replaced, and a snapshot for it is dropped with its unsent part, while one for another joiner and every BUSY stay. What
the commit hands on is named, and nothing else changes. -/
def Obligations.PeerReleaseAndEntryTakeEffect : Prop :=
  ∀ (s : State) (x y : Station) (p : Nat) (items : List Item),
    (LivePeerFrame s (.release x y) →
      let image := { s.image with points := frameEffect s.roster (.release x y) s.image.points }
      let roster := breakSilence s.number x (rosterEffect s.number true (.release x y) s.roster)
      SettlesBy (exec (.release x y) s)
        { s.heard (.release x y) with
          image := image
          roster := roster
          agenda := s.agenda ++ handedOn s (.release x y) (decide (s.lifecycle = .active)) image roster }) ∧
    (LivePeerFrame s (.entry x p items) →
      let f := Frame.entry x p items
      let image := { s.image with
        points := items.foldl (applyItem x) (withdrawStation x s.image.points)
        windows := startWindows s.image.windows items }
      let roster := s.roster.update x (fun _ => ⟨.active, p, some 0, none⟩)
      ∃ e, SettlesBy (exec (.entry x p items) s) e ∧ FlightKept s e ∧
        (∀ sn, e.join.snapshot = some sn → sn.joiner ≠ x) ∧
        e = { s.heard f with
          commit := { s.commit.afterPeer with flight := e.commit.flight }
          image := image
          roster := roster
          join := { (s.heard f).join with snapshot := snapshotWithout s x }
          asm := { (s.heard f).asm with partSlot := partSlotWithout s x }
          agenda := s.agenda ++ handedOn s f (decide (s.lifecycle = .active)) image roster })

/-- R15, R18, R54, R80, R87, R90, R100, R102, R106, R112, R161, R169: JOIN of a peer: it becomes JOINING with its
declared P and a fresh deadline, loss treatment where it was ACTIVE or JOINING; it leaves the LOSS set, and where it was
ACTIVE its session is abandoned and its BUSY answer withdrawn. An ACTIVE station drops what it holds for that joiner as
its respondent, a snapshot with its unsent part and a BUSY, and nothing for another; then, where it is named, it takes a
snapshot after these effects and hands in part 0, or owes a BUSY where it serves another joiner. What the commit hands
on is named, and nothing else changes. Where the strays then outnumber the heard peers, which have become fewer, the
station detaches. -/
def Obligations.PeerJoinTakesEffect : Prop :=
  ∀ (s : State) (x k : Station) (p : Nat), LivePeerFrame s (.join x k p) →
    let after := s.roster.update x (fun _ => ⟨.joining, p, none, some 0⟩)
    (FallsOut s x after → s.service.restartOpen = false → FallsOff (.join x k p) s) ∧
    (¬ FallsOut s x after →
      let f := Frame.join x k p
      let image := { s.image with points := frameEffect s.roster f s.image.points }
      let named := respondentOf after k = some s.number
      ∃ e, SettlesBy (exec (.join x k p) s) e ∧ ServiceFollows s e x (s.roster.stateOf x = .active) ∧
        e = { s.heard f with
          commit := { s.commit.afterPeer with flight := e.commit.flight }
          image := image
          roster := after
          join := { (s.heard f).join with snapshot := e.join.snapshot }
          asm := { (s.heard f).asm with
            partSlot := e.asm.partSlot
            busySet := e.asm.busySet
            responseSlot := e.asm.responseSlot
            releaseSlot := e.asm.releaseSlot }
          service := e.service
          agenda := s.agenda ++ handedOn s f (decide (s.lifecycle = .active)) image after } ∧
        (s.lifecycle = .active → named → snapshotWithout s x = none →
          e.join.snapshot = some ⟨x, rosterCopy after, image.points, 0⟩ ∧ e.asm.partSlot = true ∧
          e.asm.busySet = eraseStation x s.asm.busySet) ∧
        (∀ sn, s.lifecycle = .active → named → snapshotWithout s x = some sn →
          e.join.snapshot = some sn ∧ e.asm.partSlot = s.asm.partSlot ∧ x ∈ e.asm.busySet ∧
          ∀ z, z ≠ x → (z ∈ e.asm.busySet ↔ z ∈ s.asm.busySet)) ∧
        (s.lifecycle = .active → ¬ named →
          e.join.snapshot = snapshotWithout s x ∧ e.asm.partSlot = partSlotWithout s x ∧
          e.asm.busySet = eraseStation x s.asm.busySet ∧ x ∉ e.asm.busySet ∧
          ∀ sn, e.join.snapshot = some sn → sn.joiner ≠ x) ∧
        (s.lifecycle ≠ .active →
          e.join.snapshot = s.join.snapshot ∧ e.asm.partSlot = s.asm.partSlot ∧ e.asm.busySet = s.asm.busySet))

/-- R25: two stations whose rosters and images agree before a frame of a third station, accepted by both, agree
after it, whatever else they hold. -/
def Obligations.ReplicasStayEqual : Prop :=
  ∀ (a b ta tb : State) (c : Instr) (f : Frame), c.frame? = some f →
    LivePeerFrame a f → LivePeerFrame b f →
    a.replica = b.replica → exec c a = .next ta → exec c b = .next tb →
    ta.image.standing = .complete → tb.image.standing = .complete →
      ta.replica = tb.replica

/-! ### This station's own frames, listening and joining -/

/-- R58, R60: the commit unit after this station's own frame has committed. -/
def ownCommitUnit (s : State) : CommitUnit :=
  { s.commit with
    idle := 0
    reception := none
    flight := none
    failures := 0
    pacing := if s.setup.pacingGap = 0 then none else some 0
    stopped := false }

/-- R18 to R20, R54, R77, R161: the commit of this station's own frame `f` takes its effect on the image and the roster
and hands on what a peer's frame would, with its capture records; hand-offs may be taken before the outcome reaches the
assembler and the service unit, and the others are taken after it. -/
def HandsOnOwn (c : Instr) (s : State) (f : Frame) : Prop :=
  ∃ (n : Nat) (e u v : State),
    let image := { s.image with
      points := frameEffect s.roster f s.image.points
      windows := startWindows s.image.windows (frameItems f) }
    let roster := rosterEffect s.number true f s.roster
    e = { s with
      commit := ownCommitUnit s
      image := image
      roster := roster
      join := e.join
      asm := e.asm
      service := e.service
      agenda := s.agenda ++ handedOn s f true image roster } ∧
    Takes n e u ∧ v = { u with asm := v.asm, service := v.service } ∧ exec c s = .next v.finish

/-- R18 to R20, R58, R60, R66, R70, R72 to R74, R101, R102, R112, R161, R168, R173: this station's own UPDATE,
ROLLCALL, LOSS, RELEASE, BUSY and IMAGE frames commit while it is ACTIVE: the failure count returns to 0 and pacing
starts, and no ROLLCALL is due. After an UPDATE or ROLLCALL the link values become the values carried, no request
stays in flight, and its items apply here as everywhere, with their pulse windows; what these frames, a LOSS and a
RELEASE change is handed on and recorded as for a peer's. Of the others the claim leaves its slot or set; an IMAGE
part hands in the next one, and part 32 drops the snapshot. A RELEASE takes its effect on the roster and the points,
and that of a releasing session gives it its answer, which an empty response slot then takes. A frame whose claim was
withdrawn in flight commits with the same effects, and leaves every slot and the session as they are. A LOSS after
which the strays outnumber the heard peers, which have become fewer, detaches the station. -/
def Obligations.OwnFramesSettle : Prop :=
  ∀ (s : State), s.lifecycle = .active → s.roster.stateOf s.number = .active →
    (∀ (c : Instr) (f : Frame) (origin : Origin) (items : List Item) (p : Nat),
      OwnFrame s ⟨f, origin, false⟩ →
      (c = .update s.number items ∧ f = .update s.number items ∧ origin = .update ∨
        c = .rollcall s.number p ∧ f = .rollcall s.number p ∧ origin = .rollcall) →
        HandsOnOwn c s f ∧
        ∃ t, exec c s = .next t ∧
          t.commit = ownCommitUnit s ∧ t.roster = s.roster ∧ t.lifecycle = s.lifecycle ∧
          t.image = { s.image with
            points := (frameItems f).foldl (applyItem s.number) s.image.points
            windows := startWindows s.image.windows (frameItems f) } ∧
          t.asm.rollDue = false ∧ t.asm.rollTimer = s.asm.rollTimer ∧ t.service = s.service ∧
          t.asm.lossSet = s.asm.lossSet ∧ t.loader = s.loader ∧ t.timeBase = s.timeBase ∧ t.pending = s.pending ∧
          t.asm.rows.map (fun r => (r.point, r.link, r.flying)) =
            s.asm.rows.map (fun r => (r.point, r.flying.getD r.link, none)) ∧
          (∀ e ∈ t.asm.requests, e.flying = false)) ∧
    (∀ (y k : Nat) (body : PartBody), s.image.standing = .complete → y ≠ s.number →
      (OwnFrame s ⟨.loss s.number y, .loss, false⟩ →
        let after := rosterEffect s.number true (.loss s.number y) s.roster
        (FallsOut s s.number after → s.service.restartOpen = false → FallsOff (.loss s.number y) s) ∧
        (¬ FallsOut s s.number after → HandsOnOwn (.loss s.number y) s (.loss s.number y) ∧
          ∃ t, exec (.loss s.number y) s = .next t ∧ t.asm.rollDue = false ∧ y ∉ t.asm.lossSet ∧ t.roster = after ∧
            t.image.points = frameEffect s.roster (.loss s.number y) s.image.points ∧ t.commit = ownCommitUnit s ∧
            t.lifecycle = .active)) ∧
      (OwnFrame s ⟨.release s.number y, .release, false⟩ →
        HandsOnOwn (.release s.number y) s (.release s.number y) ∧
        ∃ t, exec (.release s.number y) s = .next t ∧ t.asm.rollDue = false ∧ t.asm.releaseSlot = none ∧
          t.commit = ownCommitUnit s ∧
          t.roster = rosterEffect s.number true (.release s.number y) s.roster ∧ t.lifecycle = .active ∧
          t.image = { s.image with points := frameEffect s.roster (.release s.number y) s.image.points } ∧
          (∀ ss, s.service.session = some ss → ss.releasing = true →
            t.service.session = some { ss with
              releasing := false
              answer := if s.roster.stateOf y = .lost then .done else .refused } ∧
            t.asm.responseSlot =
              if s.asm.responseSlot = none then nextResponse t.service else s.asm.responseSlot)) ∧
      (OwnFrame s ⟨.busy s.number y, .busy y, false⟩ →
        ∃ t, exec (.busy s.number y) s = .next t ∧ t.asm.rollDue = false ∧
          t.asm.busySet = eraseStation y s.asm.busySet ∧
          t.commit = ownCommitUnit s) ∧
      (∀ sn, OwnFrame s ⟨.image s.number y k body, .part, false⟩ → s.join.snapshot = some sn → sn.next = k →
        ∃ t, exec (.image s.number y k body) s = .next t ∧ t.asm.rollDue = false ∧ t.commit = ownCommitUnit s ∧
          (k < 32 → t.join.snapshot = some { sn with next := k + 1 } ∧ t.asm.partSlot = true) ∧
          (32 ≤ k → t.join.snapshot = none ∧ t.asm.partSlot = false)) ∧
      (∀ (c : Instr) (f : Frame) (origin : Origin) (tag : Byte) (status : Status) (n : Nat) (payload : List Byte),
        c.frame? = some f → OwnFrame s ⟨f, origin, true⟩ → origin ≠ .sessionPart true →
        (f = .release s.number y ∨ f = .busy s.number y ∨ f = .image s.number y k body ∨
          f = .svcRsp s.number y tag status k n payload) →
          ∃ t, exec c s = .next t ∧ t.asm.rollDue = false ∧ t.commit = ownCommitUnit s ∧ t.lifecycle = .active ∧
            t.roster = rosterEffect s.number true f s.roster ∧
            t.image = { s.image with points := frameEffect s.roster f s.image.points } ∧
            t.join.snapshot = s.join.snapshot ∧ t.service = s.service ∧ t.asm.lossSet = s.asm.lossSet ∧
            t.asm.busySet = s.asm.busySet ∧ t.asm.partSlot = s.asm.partSlot ∧
            t.asm.responseSlot = s.asm.responseSlot ∧ t.asm.releaseSlot = s.asm.releaseSlot ∧
            t.asm.joinSlot = s.asm.joinSlot))

/-- R73, R167, R168: this station's own SVC_RSP commits: the session goes to its next part or closes after its last, a
BUSY answer leaves the list, the next response is handed into the slot, and no ROLLCALL is due. Only an empty slot takes
a response. -/
def Obligations.OwnResponseAdvancesTheSession : Prop :=
  (∀ s : State, s.handResponse =
    if s.asm.responseSlot = none then { s with asm := { s.asm with responseSlot := nextResponse s.service } } else s) ∧
  ∀ (s : State) (y : Station) (tag : Byte) (status : Status) (k n : Nat) (payload : List Byte),
    s.lifecycle = .active → s.image.standing = .complete → s.roster.stateOf s.number = .active →
    (∀ ss, OwnFrame s ⟨.svcRsp s.number y tag status k n payload, .sessionPart false, false⟩ →
      s.service.session = some ss →
      ∃ t, exec (.svcRsp s.number y tag status k n payload) s = .next t ∧ t.commit = ownCommitUnit s ∧
        t.asm.rollDue = false ∧
        t.service.session = (if ss.next < ss.parts then some { ss with next := ss.next + 1 } else none) ∧
        t.service.busyList = s.service.busyList ∧ t.asm.responseSlot = nextResponse t.service) ∧
    (OwnFrame s ⟨.svcRsp s.number y tag status k n payload, .busyAnswer y, false⟩ →
      ∃ t, exec (.svcRsp s.number y tag status k n payload) s = .next t ∧ t.commit = ownCommitUnit s ∧
        t.asm.rollDue = false ∧ t.service.session = s.service.session ∧
        t.service.busyList = s.service.busyList.filter (fun e => e.1 ≠ y) ∧
        t.asm.responseSlot = nextResponse t.service)

/-- R164, R177, R183: a RESTART has been performed: every block is at its reset value and the straps have been read
again, at levels that the manual leaves open (log 9): 1 to 30 is the station's number and the loader asks for the
header, 0 and 31 report STATION-STRAP and lead to CONFIG-FAULT. A present fault record and a FROZEN ring survive. That
the time base runs on is the model's choice (log 8), and so is that OWN-FAULT is OFF at the evaluator, with every other
source, until the handover, where a kept record has it start ON (log 39). -/
structure Restarted (s t : State) : Prop where
  started  : isStation t.loader.straps.toNat = true → t.lifecycle = .start ∧ t.loader.number = t.loader.straps.toNat ∧
    t.loader.phase = .header ∧ t.eval = Evaluator.reset
  strapped : isStation t.loader.straps.toNat = false → t.lifecycle = .configFault ∧ t.loader.phase = .none ∧
    t.fault.line = true
  loader   : t.loader.config = none ∧ t.loader.held = false
  link     : t.commit = CommitUnit.reset ∧ t.image = ImageBlock.reset ∧ t.roster = Roster.initial ∧
    t.join = JoinController.reset ∧ t.service = ServiceUnit.reset
  asm      : t.asm = { Assembler.reset with faultPart := t.fault.line }
  units    : t.timers = TimerUnit.reset ∧ t.field.inputs = s.field.inputs.map fun i => ⟨i.line, false, none⟩
  outputs  : ∀ o ∈ t.field.outputs, o.driven = false ∧ o.hold = false ∧ o.phase = .off
  fault    : t.fault.latched = false ∧ ∀ r, s.fault.record = some r → t.fault.record = some r
  capture  : s.capture.mode = .frozen → t.capture = s.capture
  rest     : t.pending = s.pending ∧ t.timeBase = s.timeBase

/-- R113, R164, R174, R183: the commit of a RESTART's DONE performs the restart, withdrawn in flight or not; where no
hand-off waits and the straps hold a station number, the fault record, the counts and a FROZEN ring are kept, and the
next index and ordinal carry on. A detach while a RESTART session is open performs it as well, in place of the rejoin
holdoff: the detach of the eighth send failure, of the fourth veto in a row, and of a LOSS that names this station.
That the time base runs on (log 8), the levels of the straps (log 9), and OWN-FAULT OFF at the evaluator until the
handover (log 39) are the model's choices. -/
def Obligations.RestartIsPerformedAtItsDone : Prop :=
  ∀ (s : State),
    (∀ (y : Station) (tag : Byte) (withdrawn : Bool), s.lifecycle = .active → s.image.standing = .complete →
      s.roster.stateOf s.number = .active →
      OwnFrame s ⟨.svcRsp s.number y tag .done 1 1 [], .sessionPart true, withdrawn⟩ →
        ∃ t, exec (.svcRsp s.number y tag .done 1 1 []) s = .next t ∧ Restarted s t ∧
          (s.Quiet → isStation t.loader.straps.toNat = true →
            t.fault.record = s.fault.record ∧ t.fault.counts = s.fault.counts ∧
            t.capture = if s.capture.mode = .frozen then s.capture
              else ⟨.off, [], s.capture.nextIndex, s.capture.nextOrdinal, 0, none⟩)) ∧
    (s.service.restartOpen = true →
      (s.commit.flight ≠ none → s.commit.failures = 7 →
        ∃ t, exec .abort s = .next t ∧ Restarted s t ∧ t.fault.record ≠ none) ∧
      (∀ cells r m, s.loader.held = false → s.lifecycle.participates = true → s.commit.flight = none →
        s.commit.vetoes = 3 → judgedCells s cells = some r → judgeCells r = .error m →
          ∃ t, exec (.veto cells) s = .next t ∧ Restarted s t ∧ t.fault.record ≠ none) ∧
      (∀ x, LivePeerFrame s (.loss x s.number) →
        ∃ t, exec (.loss x s.number) s = .next t ∧ Restarted s t ∧ t.fault.record ≠ none))

/-- R95, R97, R98, R114, R115: the end of the listen period: join the lowest candidate, found, or listen again. The
end of the rejoin holdoff listens again as well. A return counts an attempt, and the fourth leads to LINK-FAULT, every
block leaving the link as at a detach. A return from LISTEN to LISTEN keeps the frame in reception recorded: the
model's choice (log 38). -/
def Obligations.ListenPeriodAndHoldoffDecide : Prop :=
  ∀ (s : State), (s.lifecycle = .listen → HasReached s.join.listenTimer (4 * s.setup.period) →
    (∀ c rest, s.join.candidates = c :: rest →
      SettlesTo (exec .listenPeriodExpiry s)
        { s with
          join := { s.join with listenTimer := none, choice := c }
          asm := { s.asm with joinSlot := some .join } }) ∧
    (s.join.candidates = [] → s.join.activity = false →
      SettlesTo (exec .listenPeriodExpiry s)
        { s with
          image := { ImageBlock.reset with standing := .founding }
          roster := Roster.initial
          join := { s.join with listenTimer := none, spoiled := false, choice := 0 }
          asm := { s.asm with joinSlot := some .join } }) ∧
    (s.join.candidates = [] → s.join.activity = true → s.join.attempts < 3 →
      SettlesTo (exec .listenPeriodExpiry s)
        { s with
          commit := { s.commit with idle := 0 }
          image := ImageBlock.reset
          roster := Roster.initial
          join := { JoinController.reset with attempts := s.join.attempts + 1, listenTimer := some 0 } }) ∧
    (s.join.candidates = [] → s.join.activity = true → s.join.attempts = 3 →
      ∃ t, exec .listenPeriodExpiry s = .next t ∧ LeftLink s t .linkFault none ∧ t.fault.line = true ∧
        (s.fault.record = none →
          t.fault.record = some ⟨.attemptsExhausted, none, s.timeBase, .listen⟩))) ∧
    (s.lifecycle = .detached → HasReached s.join.holdoff (2 * s.setup.period + s.number) →
      (s.join.attempts < 3 →
        SettlesTo (exec .rejoinHoldoffExpiry s)
          { s with
            lifecycle := .listen
            commit := { s.commit with idle := 0 }
            image := ImageBlock.reset
            roster := Roster.initial
            join := { JoinController.reset with attempts := s.join.attempts + 1, listenTimer := some 0 } }) ∧
      (s.join.attempts = 3 →
        ∃ t, exec .rejoinHoldoffExpiry s = .next t ∧ LeftLink s t .linkFault none ∧ t.fault.line = true ∧
          (s.fault.record = none →
            t.fault.record = some ⟨.attemptsExhausted, none, s.timeBase, .detached⟩)))

/-- R21, R55, R91, R96, R99: a well-formed commit of another station seen in LISTEN. While the listen period runs the
activity mark is set and the sender of a ROLLCALL, UPDATE or ENTRY becomes a candidate. While FOUNDING the frame is
applied to the founding image and roster where they accept it, a period mismatch alone being handed on, and a frame of
an ABSENT or LOST sender, not a JOIN, spoils the image. -/
def Obligations.ListenerFollowsCommits : Prop :=
  ∀ (s : State) (c : Instr) (f : Frame), c.frame? = some f → s.loader.held = false → s.lifecycle = .listen →
    s.commit.flownAs? f = none → s.received? f = some (.ok f) → frameSender f ≠ s.number →
      let unit := { s.commit with idle := 0, reception := none, pacing := none, stopped := false }
      (s.join.listenTimer ≠ none → s.image.standing = .none →
        SettlesTo (exec c s)
          { s with
            commit := unit
            join := { s.join with
              activity := true
              candidates := if namesCandidate f then insertStation (frameSender f) s.join.candidates
                else s.join.candidates } }) ∧
      (s.join.listenTimer = none → s.image.standing = .none → SettlesTo (exec c s) { s with commit := unit }) ∧
      (s.join.listenTimer = none → s.image.standing = .founding → accepts s.roster f = true →
        SettlesBy (exec c s)
          { s with
            commit := unit
            image := { s.image with points := frameEffect s.roster f s.image.points }
            roster := rosterEffect s.number false f s.roster
            agenda := s.agenda ++ s.mismatchReport f }) ∧
      (s.join.listenTimer = none → s.image.standing = .founding → isJoin f = false →
        (s.roster.stateOf (frameSender f) = .absent ∨ s.roster.stateOf (frameSender f) = .lost) →
          SettlesTo (exec c s) { s with commit := unit, join := { s.join with spoiled := true } })

/-- R103: the commit of this station's own JOIN makes it JOINING with fresh joiner state; a founder's image, its own
JOIN applied, becomes FROZEN. -/
def Obligations.OwnJoinStartsTheTransfer : Prop :=
  ∀ (s : State) (k p : Nat), OwnFrame s ⟨.join s.number k p, .joinSlot, false⟩ → s.Quiet →
    (s.lifecycle = .listen ∧ (s.image.standing = .none ∨ s.image.standing = .founding) ∨
      s.lifecycle = .joining ∧ s.image.standing = .none) →
      let founding := s.image.standing = .founding
      exec (.join s.number k p) s = .next
        { s with
          lifecycle := .joining
          commit := { ownCommitUnit s with vetoes := 0 }
          image := if founding then { s.image with
              points := frameEffect s.roster (.join s.number k p) s.image.points
              standing := .frozen } else s.image
          roster := if founding then rosterEffect s.number false (.join s.number k p) s.roster else s.roster
          join := { s.join with
            listenTimer := none
            respondent := if k = 0 then none else some k
            parts := []
            backlog := []
            answerTimer := some 0
            gapTimer := none
            awaiting := false }
          asm := { s.asm with
            rollDue := false
            joinSlot := none
            rows := rowsCommitted s.asm.rows
            requests := requestsCommitted s.asm.requests } }

/-- R18, R22, R89, R90, R92, R108: what the completion of an image hands on: the period mismatches of the replayed
frames, the points that are ON, the ACTIVE stations, and the standing. -/
def completionHandOffs (s : State) (r : Replay) : List HandOff :=
  r.reports.flatMap s.mismatchReport ++ completionChanges ⟨.complete, r.points, List.replicate 32 none⟩
    ++ activePeers (startTimers s.number r.roster) true ++ [.lifecycleToEvaluator]

/-- R22, R92, R108: the station whose image the replay `r` has completed, its hand-offs still waiting. -/
def completed (s : State) (r : Replay) : State :=
  { s with
    image := ⟨.complete, r.points, List.replicate 32 none⟩
    roster := startTimers s.number r.roster
    join := { s.join with
      respondent := none
      parts := []
      backlog := []
      answerTimer := none
      gapTimer := none
      awaiting := false
      spoiled := false
      stray := [] }
    asm := { s.asm with joinSlot := some .entry }
    agenda := s.agenda ++ completionHandOffs s r }

/-- R21, R22, R92, R103, R107, R108: a joiner takes the part it expects from its respondent of record and disregards
every other part. A founder that takes part 0 gives up its FROZEN image and its candidates. Part 32 completes the
image: the parts are the base, the backlog is replayed over it, the standing becomes COMPLETE, timers start, the ENTRY
is handed in, and the points and stations that are ON and ACTIVE are handed on. Every event of the completion finds the
standing COMPLETE, so it is taken with G0 in PREVIEW: the model's choice (log 34). -/
def Obligations.JoinerTakesTheExpectedPart : Prop :=
  ∀ (s : State) (x : Station) (k : Nat) (body : PartBody), s.loader.held = false → s.lifecycle = .joining →
    s.commit.flownAs? (.image x s.number k body) = none →
    s.received? (.image x s.number k body) = some (.ok (.image x s.number k body)) → x ≠ s.number →
    (s.image.standing = .none → k < 32 → k = s.join.parts.length → s.join.awaiting = false →
      (s.join.respondent = some x ∨ s.join.respondent = none ∧ k = 0) →
        SettlesTo (exec (.image x s.number k body) s)
          { s with
            commit := s.commit.afterPeer
            join := { s.join with
              respondent := some x
              parts := s.join.parts ++ [body]
              answerTimer := none
              gapTimer := some 0 } }) ∧
    ((s.image.standing = .none ∨ s.image.standing = .frozen) →
      (k ≠ s.join.parts.length ∨ s.join.awaiting = true ∨ (∃ r, s.join.respondent = some r ∧ r ≠ x) ∨
        s.join.respondent = none ∧ k ≠ 0) →
        SettlesTo (exec (.image x s.number k body) s) { s with commit := s.commit.afterPeer }) ∧
    (s.image.standing = .frozen → k = 0 → s.join.parts = [] → s.join.awaiting = false →
      (s.join.respondent = some x ∨ s.join.respondent = none) →
        SettlesTo (exec (.image x s.number k body) s)
          { s with
            commit := s.commit.afterPeer
            image := ImageBlock.reset
            roster := Roster.initial
            join := { s.join with
              spoiled := false
              candidates := []
              respondent := some x
              parts := [body]
              answerTimer := none
              gapTimer := some 0 } }) ∧
    (s.image.standing = .none → k = 32 → s.join.parts.length = 32 → s.join.awaiting = false →
      s.join.respondent = some x →
      let parts := s.join.parts ++ [body]
      let r := replayBacklog s.number false (imageOfParts parts) (rosterOfParts parts) s.join.backlog
      SettlesBy (exec (.image x s.number k body) s) { completed s r with commit := s.commit.afterPeer })

/-- R24, R33 to R35, R92, R101: the parts built from a snapshot: part 0 is its roster, and parts 1 to 16, 17 to 22, 23
to 28 and 29 to 32 hold the records of the eight points 8(k-1) to 8k-1. The 33 parts give back the snapshot's image and
roster. The slot's part is that of the next number, from the snapshot as it was copied. -/
def Obligations.SnapshotPartsGiveBackTheImage : Prop :=
  (∀ sn : Snapshot, sn.points.any.length = 128 → sn.points.all.length = 48 → sn.points.held.length = 48 →
    sn.points.count.length = 32 →
    let points := fun (k : Nat) => (List.range 8).map fun i => 8 * (k - 1) + i
    let parts := (List.range 33).map (snapshotPart sn)
    snapshotPart sn 0 = .roster sn.roster ∧
    (∀ k, 1 ≤ k → k ≤ 16 → snapshotPart sn k = .any ((points k).map sn.points.onSet)) ∧
    (∀ k, 17 ≤ k → k ≤ 22 → snapshotPart sn k = .all ((points k).map sn.points.contributors)) ∧
    (∀ k, 23 ≤ k → k ≤ 28 → snapshotPart sn k = .held ((points k).map sn.points.heldRecord)) ∧
    (∀ k, 29 ≤ k → k ≤ 32 → snapshotPart sn k = .count ((points k).map sn.points.countRecord)) ∧
    imageOfParts parts = sn.points ∧
    rosterOfParts parts = sn.roster.map fun e => ⟨e.1, e.2, none, none⟩) ∧
  (∀ r : Roster, rosterCopy r = r.map fun e => (e.state, e.period)) ∧
  ∀ (s : State) (sn : Snapshot), s.asm.partSlot = true → s.join.snapshot = some sn →
    partFrame? s = some (.image s.number sn.joiner sn.next (snapshotPart sn sn.next))

/-- R93, R108, R113, R126, R149: what a departure from the link hands on: the points that were ON, the stations that
were ACTIVE, and the lifecycle. -/
def departureHandOffs (s : State) : List HandOff :=
  discardChanges s.image ++ (if s.image.standing = .complete then activePeers s.roster false else [])
    ++ [.lifecycleToEvaluator, .lifecycleToField]

/-- R113, R115: the station that has left the link, its hand-offs still waiting. -/
def departed (s : State) (life : Lifecycle) (holdoff : Option Nat) : State :=
  { s with
    lifecycle := life
    commit := CommitUnit.reset
    image := ImageBlock.reset
    roster := Roster.initial
    join := { JoinController.reset with attempts := s.join.attempts, holdoff := holdoff }
    asm := { Assembler.reset with
      faultPart := s.asm.faultPart
      rows := s.asm.rows.map fun r => { r with link := false, flying := none } }
    service := ServiceUnit.reset
    agenda := s.agenda ++ departureHandOffs s }

/-- The command ends with exactly the hand-offs of a departure from the link: what came before it has been taken. -/
def HandsDeparture (c : Instr) (s : State) (life : Lifecycle) (holdoff : Option Nat) : Prop :=
  ∃ u : State, u.image = s.image ∧ u.roster = s.roster ∧ u.join.attempts = s.join.attempts ∧ u.agenda = [] ∧
    exec c s = .next (departed u life holdoff).finish

/-- R18, R22, R23, R90, R92, R93, R108, R113, R115: the source changes of an image that becomes COMPLETE and of one that
is discarded: one of each point that is ON, ascending, after the values of all of them, and one of each ACTIVE station,
ascending. A departure hands them with the lifecycle and nothing else: a join that fails, the eighth send failure, the
fourth veto in a row, a LOSS that names this station, a fourth return, and a frame with this station's number. A detach
that performs an open RESTART hands the same, and all of it is taken before the restart (read from R113 and R174: log
33). What a completion hands stands in JoinerTakesTheExpectedPart and FounderCompletesFromItsImage. -/
def Obligations.CompletionAndDepartureHandTheirChanges : Prop :=
  (∀ b : ImageBlock, ∃ points : List Point,
    let handed := fun (v : Bool) =>
      let changes := points.map fun p => (p, v)
      if points = [] then [] else .pointsApplied changes :: changes.map fun c => .source (.point c.1) c.2
    points.Pairwise (· < ·) ∧ (∀ p, p ∈ points ↔ b.termVisible p = true) ∧
    completionChanges b = handed true ∧ discardChanges b = handed false) ∧
  (∀ (r : Roster) (on : Bool), ∃ stations : List Station, stations.Pairwise (· < ·) ∧
    (∀ y, y ∈ stations ↔ isStation y = true ∧ r.stateOf y = .active) ∧
    activePeers r on = stations.map fun y => .source (.peer y) on) ∧
  ∀ s : State, s.Quiet →
    (s.service.restartOpen = false → s.detach none = departed s .detached (some 0)) ∧
    (s.service.restartOpen = true → ∃ (n : Nat) (left : State),
      Takes n (departed s .detached none) left ∧ left.agenda = [] ∧ s.detach none = left.performRestart) ∧
    (s.service.restartOpen = false → s.commit.flight ≠ none → s.commit.failures = 7 →
      HandsDeparture .abort s .detached (some 0)) ∧
    (∀ cells r m, s.service.restartOpen = false → s.loader.held = false → s.lifecycle.participates = true →
      s.commit.flight = none → s.commit.vetoes = 3 → judgedCells s cells = some r → judgeCells r = .error m →
        HandsDeparture (.veto cells) s .detached (some 0)) ∧
    (∀ x, s.service.restartOpen = false → LivePeerFrame s (.loss x s.number) →
      HandsDeparture (.loss x s.number) s .detached (some 0)) ∧
    (s.lifecycle = .detached → HasReached s.join.holdoff (2 * s.setup.period + s.number) → s.join.attempts = 3 →
      HandsDeparture .rejoinHoldoffExpiry s .linkFault none) ∧
    (∀ c f, c.frame? = some f → s.loader.held = false → s.lifecycle.onMedium = true → s.commit.flownAs? f = none →
      s.received? f = some (.ok f) → frameSender f = s.number → HandsDeparture c s .linkFault none)

/-- R104: BUSY from the respondent of record, the part gap and the answer timer of a named respondent move the joiner
to its next candidate, discarding parts and backlog; without one the join fails and the station detaches. -/
def Obligations.JoinerMovesToItsNextCandidate : Prop :=
  ∀ (s : State) (c : Instr) (x : Station), s.lifecycle = .joining → s.image.standing = .none →
    s.loader.held = false → s.service.restartOpen = false → s.join.respondent = some x →
    (c = .busy x s.number ∧ s.commit.flownAs? (.busy x s.number) = none ∧
        s.received? (.busy x s.number) = some (.ok (.busy x s.number)) ∧ x ≠ s.number ∧ s.join.awaiting = false ∨
      c = .partGapExpiry ∧ HasReached s.join.gapTimer (2 * s.setup.period + 1) ∨
      c = .answerTimerExpiry ∧ HasReached s.join.answerTimer (2 * s.setup.period)) →
      (∀ n, s.join.candidates.find? (fun y => x < y) = some n →
        SettlesTo (exec c s)
          { s with
            commit := if c = .busy x s.number then s.commit.afterPeer else s.commit
            join := { s.join with
              parts := []
              backlog := []
              answerTimer := none
              gapTimer := none
              awaiting := true
              choice := n }
            asm := { s.asm with joinSlot := some .join } }) ∧
      (s.join.candidates.find? (fun y => x < y) = none →
        ∃ t, exec c s = .next t ∧ Detached s t ∧ ∀ r, s.fault.record = some r → t.fault.record = some r)

/-- R104, R107, R108: the answer timer of a founder that nobody answered completes from the FROZEN founding image; a
spoiled one is given up and the join fails. So does the join of a founder that a BUSY answers, whether its answer timer
still runs or not. Every event of the completion finds the standing COMPLETE, so it is taken with G0 in PREVIEW: the
model's choice (log 34). -/
def Obligations.FounderCompletesFromItsImage : Prop :=
  ∀ (s : State), s.lifecycle = .joining → s.image.standing = .frozen → s.join.respondent = none →
      let r := replayBacklog s.number true s.image.points s.roster s.join.backlog
      (HasReached s.join.answerTimer (2 * s.setup.period) → s.join.spoiled = false → r.spoiled = false →
        SettlesBy (exec .answerTimerExpiry s) (completed s r)) ∧
      (HasReached s.join.answerTimer (2 * s.setup.period) → s.join.spoiled = true ∨ r.spoiled = true →
        s.service.restartOpen = false →
          ∃ t, exec .answerTimerExpiry s = .next t ∧ Detached s t ∧
            ∀ r, s.fault.record = some r → t.fault.record = some r) ∧
      (∀ x, s.loader.held = false → s.commit.flownAs? (.busy x s.number) = none →
        s.received? (.busy x s.number) = some (.ok (.busy x s.number)) → x ≠ s.number → s.join.awaiting = false →
        s.service.restartOpen = false →
          ∃ t, exec (.busy x s.number) s = .next t ∧ Detached s t ∧
            ∀ r, s.fault.record = some r → t.fault.record = some r)

/-- R42, R79, R89, R92, R99, R104, R105: a joiner whose image is not complete keeps the frames of others that affect it,
the JOIN, ENTRY, LOSS, RELEASE and UPDATE frames, up to 64, in commit order; the 65th ends the join. A ROLLCALL, SVC-REQ
or SVC-RSP, and a BUSY or IMAGE for another station, change nothing; and while the joiner awaits a re-JOIN no frame does
but a LOSS naming it. The replay takes them in that order over its base, without timers: an
accepted frame has its effects and is noted for its period report, an ignored one is passed over, and on a founding base
one of an ABSENT or LOST sender, not a JOIN, spoils the image; that the replay ends there is read from the rules
(log 19). Afterwards the timers of every other ACTIVE and JOINING entry start from zero. -/
def Obligations.BacklogIsKeptAndReplayed : Prop :=
  (∀ (own : Station) (founding : Bool) (m : Image) (r : Roster) (l : List Frame) (f : Frame),
    let before := replayBacklog own founding m r l
    let after := replayBacklog own founding m r (l ++ [f])
    let sender := before.roster.stateOf (frameSender f)
    replayBacklog own founding m r [] = ⟨m, r, [], false⟩ ∧
    (before.spoiled = true → after = before) ∧
    (before.spoiled = false → accepts before.roster f = true →
      after = ⟨frameEffect before.roster f before.points, rosterEffect own false f before.roster,
        before.reports ++ [f], false⟩) ∧
    (before.spoiled = false → accepts before.roster f = false →
      after = { before with
        spoiled := founding && !isJoin f && (decide (sender = .absent) || decide (sender = .lost)) })) ∧
  (∀ (own : Station) (r : Roster) (t : Station), r.length = 30 → isStation t = true →
    let e := r.entry t
    (∀ f, accepts r f = true →
      let a := (rosterEffect own false f r).entry t
      a.state = (entryAfter own f t e).state ∧ a.period = (entryAfter own f t e).period ∧
        (a.silence = none ∨ a.silence = e.silence) ∧ (a.deadline = none ∨ a.deadline = e.deadline)) ∧
    (startTimers own r).entry t =
      if t = own then e
      else if e.state = .active then { e with silence := some 0 }
      else if e.state = .joining then { e with deadline := some 0 } else e) ∧
  ∀ (s : State) (c : Instr) (f : Frame), c.frame? = some f → s.loader.held = false → s.lifecycle = .joining →
    (s.image.standing = .none ∨ s.image.standing = .frozen) → s.commit.flownAs? f = none →
    s.received? f = some (.ok f) → frameSender f ≠ s.number → namesLost s.number f = false →
    let kept := match f with
      | .join _ _ _ | .entry _ _ _ | .loss _ _ | .release _ _ | .update _ _ => True
      | .busy _ _ | .image _ _ _ _ | .rollcall _ _ | .svcReq _ _ _ _ | .svcRsp _ _ _ _ _ _ _ => False
    let addressed := match f with
      | .busy _ y | .image _ y _ _ => y = s.number
      | _ => False
    (kept → s.join.awaiting = false → s.join.backlog.length < 64 →
      SettlesTo (exec c s)
        { s with commit := s.commit.afterPeer, join := { s.join with backlog := s.join.backlog ++ [f] } }) ∧
    (kept → s.join.awaiting = false → 64 ≤ s.join.backlog.length → s.service.restartOpen = false →
      ∃ t, exec c s = .next t ∧ Detached s t) ∧
    ((¬ kept ∧ ¬ addressed ∨ s.join.awaiting = true) → SettlesTo (exec c s) { s with commit := s.commit.afterPeer })

/-- R18, R19, R73, R76, R81, R90, R110, R126: the commit of this station's own ENTRY makes it ACTIVE: its roster
entry, the peers' silence timers, the attempt count and its failure count. The link value of a row becomes the value
that the ENTRY carried for its point, and no ROLLCALL is due. What the ENTRY has changed is handed on, without
records, and then the lifecycle: afterwards OWN-ACTIVE is ON and G0 is OPEN. -/
def Obligations.OwnEntryMakesTheStationActive : Prop :=
  ∀ (s : State) (p : Nat) (items : List Item), OwnFrame s ⟨.entry s.number p items, .joinSlot, false⟩ →
    s.lifecycle = .joining → s.image.standing = .complete → s.roster.length = 30 → isStation s.number = true →
    s.roster.stateOf s.number = .joining →
      ∃ t, exec (.entry s.number p items) s = .next t ∧
        t.lifecycle = .active ∧ t.join.attempts = 0 ∧ t.commit = ownCommitUnit s ∧
        t.image.standing = .complete ∧
        t.image.points = items.foldl (applyItem s.number) (withdrawStation s.number s.image.points) ∧
        t.roster.entry s.number = ⟨.active, p, none, none⟩ ∧
        (∀ y, isStation y = true → y ≠ s.number → t.roster.entry y =
          if s.roster.stateOf y = .active then { s.roster.entry y with silence := some 0 } else s.roster.entry y) ∧
        t.asm.rollTimer = s.asm.rollTimer ∧ t.asm.rollDue = false ∧ t.asm.joinSlot = none ∧
        t.asm.lossSet = s.asm.lossSet ∧
        t.asm.rows.length = s.asm.rows.length ∧
        (∀ (i : Nat) (r : ContributionRow), s.asm.rows[i]? = some r → ∃ r', t.asm.rows[i]? = some r' ∧
          r'.point = r.point ∧ r'.flying = none ∧
          (∀ before on after, items = before ++ .level r.point on :: after → (∀ v, .level r.point v ∉ after) →
            r'.link = on) ∧
          ((∀ v, .level r.point v ∉ items) → r'.link = r.flying.getD r.link)) ∧
        t.service = s.service ∧ t.loader = s.loader ∧ t.timeBase = s.timeBase ∧
        t.eval.src.ownActive = true ∧ t.eval.gates.getD 0 .closed = .opened ∧
        ∃ (n k : Nat) (e u v w x : State),
          let f := Frame.entry s.number p items
          let image := { s.image with
            points := frameEffect s.roster f s.image.points
            windows := startWindows s.image.windows items }
          let roster := rosterEffect s.number true f s.roster
          e = { s with
            commit := ownCommitUnit s
            image := image
            roster := roster
            join := e.join
            asm := e.asm
            agenda := s.agenda ++ handedOn s f false image roster } ∧
          Takes n e u ∧
          v = { u with
            lifecycle := .active
            roster := v.roster
            join := v.join
            agenda := u.agenda ++ [.lifecycleToEvaluator, .lifecycleToField] } ∧
          Takes k v w ∧ x = { w with asm := x.asm } ∧ t = x.finish

/-! ### Service requests -/

/-- R166, R168: the session that a request opens, with its first part handed into the response slot. -/
def opened (s : State) (f : Frame) (ss : Session) : State :=
  State.handResponse
    { s.heard f with
      roster := s.roster.update (frameSender f) fun e => { e with silence := some 0 }
      service := { s.service with session := some ss } }

/-- R154, R159, R162, R168, R172, R173: CLEAR-FAULT and ARM-CAPTURE act as they are accepted: the record is absent
afterwards (or is a PULSE-OVERFLOW that the fall of OWN-FAULT itself brought about), the counts are 0 where the counts
flag is ON and stay otherwise, every latched output is in SETTLING from zero with its driven level decided anew, and
capture is ARMED with an empty ring, its remaining post count 0 by the model's choice (log 35). That no other event's
report comes between the clear and the field line unit's hand-off of the empty set, after which the latched-output
indication is OFF, is the model's choice too (log 40). RELEASE-STATION hands
in a RELEASE of a LOST station and answers REFUSED otherwise. An empty response slot takes the next response, the DONE
of CLEAR-FAULT and ARM-CAPTURE where no BUSY answer is owed. -/
def Obligations.CommandRequestsAct : Prop :=
  ∀ (s : State) (x y : Station) (tag : Byte) (counts : Bool), s.service.session = none →
    let me := s.number
    (TakesRequest s x tag (.clearFault counts) →
      ∃ t, exec (.clearFault x me tag counts) s = .next t ∧
        t.service.session = some ⟨x, tag, .clearFault counts, 1, 1, false, .done⟩ ∧
        (s.Quiet → t.fault.record = none ∨ ∃ r, t.fault.record = some r ∧ r.kind = .pulseOverflow) ∧
        t.fault.latched = (s.fault.latched && s.field.latchedOutputs.isEmpty) ∧
        (s.Quiet → s.fault.counts.length = 10 → ∀ k, k ≠ FaultKind.pulseOverflow.code →
          t.fault.counts.getD k 0 = if counts then 0 else s.fault.counts.getD k 0) ∧
        t.field.latchedOutputs = [] ∧
        (∀ (n : Nat) (o : FieldOutput), s.field.outputs[n]? = some o → o.phase = .latched →
          ∃ u, t.field.outputs[n]? = some u ∧
          u.phase = .settling ∧ u.timer = some 0 ∧ u.driven = u.commanded ∧ u.hold = u.driven) ∧
        t.service.busyList = s.service.busyList ∧
        t.asm.responseSlot = (if s.asm.responseSlot = none then nextResponse t.service else s.asm.responseSlot) ∧
        t.lifecycle = .active ∧ t.image = s.image) ∧
    (TakesRequest s x tag .armCapture →
      SettlesTo (exec (.armCapture x me tag) s)
        { opened s (.svcReq x me tag .armCapture) ⟨x, tag, .armCapture, 1, 1, false, .done⟩ with
          capture := { s.capture with mode := .armed, ring := [], triggerIndex := none, remaining := 0 } }) ∧
    (TakesRequest s x tag (.releaseStation y) →
      (s.roster.stateOf y = .lost →
        ∃ t, exec (.releaseStation x me tag y) s = .next t ∧ t.asm.releaseSlot = some y ∧
          t.service.session = some ⟨x, tag, .releaseStation y, 1, 1, true, .done⟩ ∧
          t.asm.responseSlot = (opened s (.svcReq x me tag (.releaseStation y))
            ⟨x, tag, .releaseStation y, 1, 1, true, .done⟩).asm.responseSlot ∧ t.image = s.image) ∧
      (s.roster.stateOf y ≠ .lost →
        SettlesTo (exec (.releaseStation x me tag y) s)
          (opened s (.svcReq x me tag (.releaseStation y)) ⟨x, tag, .releaseStation y, 1, 1, false, .refused⟩)))

/-- R36, R165 to R168, R170, R171, R174: each reading request, and RESTART, opens the session with its part count
while none is open. While a session is open every request but RESTART is owed a BUSY answer, at the end of the list
or, with its new tag, in the place of an earlier one to the same requester; RESTART replaces the session, and a
session part of the old one leaves the response slot. An empty slot takes the next response. A request committed while
this station is JOINING, or addressed to another station, is disregarded. -/
def Obligations.RequestsOpenTheSessionOrAreAnsweredBusy : Prop :=
  (∀ (before after : List (Station × Byte)) (x : Station) (old tag : Byte), (∀ e ∈ before ++ after, e.1 ≠ x) →
    oweBusy (before ++ after) x tag = before ++ after ++ [(x, tag)] ∧
    oweBusy (before ++ (x, old) :: after) x tag = before ++ (x, tag) :: after) ∧
  (∀ (s : State) (x : Station) (tag p : Byte) (first : Word16) (count : Nat), s.service.session = none →
    let me := s.number
    let opens := fun (c : Instr) (request : Request) (parts : Nat) =>
      TakesRequest s x tag request →
        SettlesTo (exec c s) (opened s (.svcReq x me tag request) ⟨x, tag, request, parts, 1, false, .done⟩)
    opens (.readPoint x me tag p) (.readPoint p) 1 ∧
    opens (.readRoster x me tag) .readRoster 2 ∧
    opens (.readLocal x me tag) .readLocal 3 ∧
    opens (.readFault x me tag) .readFault 1 ∧
    opens (.readCapture x me tag first count) (.readCapture first count) (1 + (count + 2) / 3) ∧
    opens (.restart x me tag) .restart 1) ∧
  (∀ (s : State) (c : Instr) (x y : Station) (tag : Byte) (request : Request) (ss : Session),
    c.frame? = some (.svcReq x y tag request) →
    (y = s.number → TakesRequest s x tag request → s.service.session = some ss → request ≠ .restart →
      ∃ t, exec c s = .next t ∧ t.service.session = some ss ∧ t.service.busyList = oweBusy s.service.busyList x tag ∧
        t.asm.responseSlot = (if s.asm.responseSlot = none then nextResponse t.service else s.asm.responseSlot) ∧
        t.image = s.image ∧ t.lifecycle = .active) ∧
    (y = s.number → TakesRequest s x tag .restart → s.service.session = some ss → request = .restart →
      ∃ t, exec c s = .next t ∧ t.service.session = some ⟨x, tag, .restart, 1, 1, false, .done⟩ ∧
        t.service.busyList = s.service.busyList ∧ t.asm.releaseSlot = none ∧ t.lifecycle = .active ∧
        (∀ z, s.asm.responseSlot = some (.busyAnswer z) → t.asm.responseSlot = s.asm.responseSlot) ∧
        ((∀ z, s.asm.responseSlot ≠ some (.busyAnswer z)) → t.asm.responseSlot = nextResponse t.service)) ∧
    (LivePeerFrame s (.svcReq x y tag request) → (y ≠ s.number ∨ s.lifecycle = .joining) →
      SettlesTo (exec c s)
        { s.heard (.svcReq x y tag request) with
          roster := s.roster.update x fun e => { e with silence := some 0 } }))

/-- R168, R170, R171, R175: what the parts of a session carry. A reading part has status DONE and its bytes in the
layout of R175; bits that the layout leaves without content are not stated (log 6). A record part of READ-CAPTURE is
GONE with an empty payload where an index it covers is gone, and otherwise DONE with the records held. The part that
answers a command carries its status and no payload. -/
def Obligations.ResponsePartsCarryTheirBlocks : Prop :=
  ∀ (s : State) (ss : Session) (k : Nat),
    let part := responsePart s ss k
    let byte := fun (n : Nat) => (part.2.getD n 0).toNat
    let word := fun (n : Nat) => 256 * byte n + byte (n + 1)
    (∀ p : Byte, ss.request = .readPoint p →
      part.1 = .done ∧ byte 0 % 2 = (s.image.termVisible p.toNat).toNat ∧
      (p.toNat < 128 → part.2.length = 5 ∧ byte 0 / 64 = 0 ∧ word 3 % 4 = 0 ∧
        ∀ x, 1 ≤ x → x ≤ 30 →
          ((65536 * word 1 + word 3).testBit (32 - x) = true ↔ x ∈ s.image.points.onSet p.toNat)) ∧
      (128 ≤ p.toNat → p.toNat < 176 →
        let m := s.image.points.contributors p.toNat
        (∀ e ∈ m, e.1 ≤ 30) → m.length ≤ 30 →
          part.2.length = 2 + m.length ∧ byte 0 / 64 = 1 ∧ byte 1 = m.length ∧
          ∀ i e, m[i]? = some e → byte (2 + i) / 8 = e.1 ∧ byte (2 + i) % 4 = entryCode e.2) ∧
      (176 ≤ p.toNat → p.toNat < 224 →
        let r := s.image.points.heldRecord p.toNat
        part.2.length = 3 ∧ byte 0 / 64 = 2 ∧ byte 1 = r.changer.getD 0 % 256 ∧ byte 2 = r.changes.toNat) ∧
      (224 ≤ p.toNat →
        let r := s.image.points.countRecord p.toNat
        part.2.length = 4 ∧ byte 0 / 64 = 3 ∧ word 1 = r.count.toNat ∧ byte 3 = r.pulser.getD 0 % 256)) ∧
    (ss.request = .readRoster → part.1 = .done ∧ part.2.length = 30 ∧ ∀ i, i < 15 →
      let e := s.roster.entry (15 * (k - 1) + i + 1)
      byte (2 * i) = rosterCode e.state ∧ byte (2 * i + 1) = e.period % 256) ∧
    (ss.request = .readLocal → part.1 = .done ∧
      (k = 1 → s.field.inputs.length = 16 → s.field.outputs.length = 12 → s.eval.src.markers.length = 32 →
        s.eval.gates.length = 9 → part.2.length = 17 ∧
          (∀ n i, s.field.inputs[n]? = some i → (word 0).testBit n = i.filtered) ∧
          (∀ n o, s.field.outputs[n]? = some o → (word 2).testBit n = o.commanded ∧ (word 4).testBit n = o.driven ∧
            (word 6).testBit n = o.readback ∧ (word 8).testBit n = decide (o.phase = .latched)) ∧
          (∀ n v, s.eval.src.markers[n]? = some v → (65536 * word 10 + word 12).testBit n = v) ∧
          (∀ n g, s.eval.gates[n]? = some g → (256 * word 14 + byte 16) / 4 ^ (11 - n) % 4 = g.code) ∧
          byte 16 % 64 = 0) ∧
      (k = 2 → s.timers.timers.length = 16 → part.2.length = 32 ∧ ∀ n t, s.timers.timers[n]? = some t →
        t.value < 32768 → word (2 * n) = t.done.toNat * 32768 + t.value) ∧
      (k = 3 → s.timers.counters.length = 8 → part.2.length = 17 ∧ ∀ n t, s.timers.counters[n]? = some t →
        word (2 * n) = t.value % 65536 ∧ (byte 16).testBit n = t.done)) ∧
    (ss.request = .readFault → part.1 = .done ∧ (s.fault.counts.length = 10 → part.2.length = 16 ∧
      ∀ n v, s.fault.counts[n]? = some v → byte (6 + n) = v % 256) ∧
      (s.fault.record = none → ∀ n, n < 6 → byte n = 0) ∧
      (∀ r, s.fault.record = some r →
        byte 0 / 128 = 1 ∧ byte 0 / 64 % 2 = r.subject.isSome.toNat ∧ byte 0 % 16 = r.kind.code ∧
        word 3 = r.stamp.toNat ∧ byte 5 = r.lifecycle.code ∧
        (∀ code entry, r.subject = some (.config code entry) → byte 1 = code % 256 ∧ byte 2 = entry % 256) ∧
        ((∀ code entry, r.subject ≠ some (.config code entry)) → byte 1 = 0) ∧
        (∀ n, (r.subject = some (.station n) ∨ r.subject = some (.output n) ∨ r.subject = some (.point n)) →
          byte 2 = n % 256))) ∧
    (∀ first count, ss.request = .readCapture first count →
      (k = 1 → part.1 = .done ∧ part.2.length = 9 ∧ byte 0 / 128 = s.capture.triggerIndex.isSome.toNat ∧
        byte 0 % 4 = s.capture.mode.code ∧ byte 1 = s.capture.remaining % 256 ∧
        (∀ i, s.capture.triggerIndex = some i → word 2 = i.toNat) ∧
        (s.capture.ring = [] → word 4 = s.capture.nextIndex.toNat) ∧
        (∀ r rest, s.capture.ring = r :: rest → word 4 = r.index.toNat) ∧
        byte 6 = s.capture.ring.length % 256 ∧ word 7 = s.capture.nextIndex.toNat) ∧
      (2 ≤ k →
        let covered := (List.range (min 3 (count - 3 * (k - 2)))).map fun i => first + BitVec.ofNat 16 (3 * (k - 2) + i)
        let held := covered.filterMap fun i => s.capture.ring.find? fun r => r.index = i
        let gone := ∃ i ∈ covered, (∀ r ∈ s.capture.ring, r.index ≠ i) ∧ 48 ≤ (i - s.capture.nextIndex).toNat
        (gone → part = (.gone, [])) ∧
        (¬ gone → part.1 = .done ∧ part.2.length = 10 * held.length ∧ ∀ i r, held[i]? = some r →
          word (10 * i) = r.index.toNat ∧ byte (10 * i + 2) = r.ordinal.toNat ∧ word (10 * i + 3) = r.stamp.toNat ∧
          (r.body.station < 32 → byte (10 * i + 5) = 32 * r.body.kind.code + r.body.station) ∧
          byte (10 * i + 6) = r.body.point.getD 0 % 256 ∧
          byte (10 * i + 7) / 128 = (r.body.point.isSome && r.body.value.isSome).toNat ∧
          byte (10 * i + 7) / 64 % 2 = r.body.count.isSome.toNat ∧
          (∀ v, r.body.value = some v → byte (10 * i + 7) % 2 = v.toNat) ∧
          word (10 * i + 8) = (r.body.count.getD 0).toNat))) ∧
    ((∃ counts, ss.request = .clearFault counts) ∨ ss.request = .armCapture ∨ (∃ y, ss.request = .releaseStation y) ∨
      ss.request = .restart → part = (ss.answer, []))

/-! ### Local timers and field lines -/

/-- R85: station `y` is an ACTIVE peer whose silence has exceeded three of its periods. -/
def SilenceExceeded (s : State) (y : Station) : Prop :=
  s.image.standing = .complete ∧ y ≠ s.number ∧ s.roster.stateOf y = .active ∧
    HasReached (s.roster.entry y).silence (3 * (s.roster.entry y).period + 1)

/-- R86: station `y` is a JOINING peer that has exceeded eighty of its periods. -/
def DeadlineExceeded (s : State) (y : Station) : Prop :=
  s.image.standing = .complete ∧ y ≠ s.number ∧ s.roster.stateOf y = .joining ∧
    HasReached (s.roster.entry y).deadline (80 * (s.roster.entry y).period + 1)

/-- R85, R86, R112: a silence limit or entry deadline that is exceeded stops its timer and adds the station to the LOSS
set; the entry stays until a LOSS commits. Where the strays then outnumber the heard peers, the station detaches. A
timer that does not run, or that a frame has started again before its expiry is taken, has no expiry. -/
def Obligations.ExceededLimitsAskForLoss : Prop :=
  ∀ (s : State) (y : Station),
    let silenced := s.roster.update y fun e => { e with silence := none }
    (SilenceExceeded s y →
      (¬ (heardPeers s.number silenced < heardPeers s.number s.roster ∧
          heardPeers s.number silenced < s.join.stray.length) ∨ s.lifecycle.participates = false →
        SettlesTo (exec (.silenceLimit y) s)
          { s with roster := silenced, asm := { s.asm with lossSet := insertStation y s.asm.lossSet } }) ∧
      (s.lifecycle.participates = true → s.roster.length = 30 → isStation y = true →
        heardPeers s.number silenced < s.join.stray.length → s.service.restartOpen = false →
          DetachesWith (.silenceLimit y) s .namedLost)) ∧
    (¬ SilenceExceeded s y → SettlesTo (exec (.silenceLimit y) s) s) ∧
    (DeadlineExceeded s y →
      SettlesTo (exec (.entryDeadline y) s)
        { s with
          roster := s.roster.update y fun e => { e with deadline := none }
          asm := { s.asm with lossSet := insertStation y s.asm.lossSet } }) ∧
    (¬ DeadlineExceeded s y → SettlesTo (exec (.entryDeadline y) s) s)

/-- R13, R136: a pulse window that has run its ten milliseconds sets its flag OFF with one source change; a unit clock
that has reached the base advances a TIMING timer by one unit, and at the preset the timer is ELAPSED and hands its
done state. A window or unit that a command before it has started again, or stopped, does not expire. -/
def Obligations.WindowAndUnitExpiriesAct : Prop :=
  ∀ (s : State) (p : Point) (n : Fin 16) (t : TimerState),
    (224 ≤ p → p < 256 → HasReached (s.image.windows.getD (p - 224) none) 10 → s.image.standing = .complete →
      SettlesBy (exec (.pulseWindowExpiry p) s)
        { s with
          image := { s.image with windows := s.image.windows.set (p - 224) none }
          agenda := s.agenda ++ [.pointsApplied [(p, false)], .source (.point p) false] }) ∧
    ((p < 224 ∨ 256 ≤ p ∨ ¬ HasReached (s.image.windows.getD (p - 224) none) 10) →
      SettlesTo (exec (.pulseWindowExpiry p) s) s) ∧
    (s.timers.timers[n.val]? = some t →
      let setup := s.setup.timer n.val
      let put := fun (u : TimerState) => { s.timers with timers := s.timers.timers.set n.val u }
      (t.phase = .timing → HasReached t.clock setup.base → t.value + 1 ≠ setup.preset →
        SettlesTo (exec (.unitExpiry n) s)
          { s with timers := put { t with value := t.value + 1, clock := some 0 } }) ∧
      (t.phase = .timing → HasReached t.clock setup.base → t.value + 1 = setup.preset →
        t.done = (setup.kind = .delayOff) →
        SettlesBy (exec (.unitExpiry n) s)
          { s with
            timers := put { t with
              value := setup.preset, phase := .elapsed, done := setup.kind ≠ .delayOff, clock := none }
            echoes := s.echoes ++ [.source (.timer n.val) (setup.kind ≠ .delayOff)] }) ∧
      ((t.phase ≠ .timing ∨ ¬ HasReached t.clock setup.base) → SettlesTo (exec (.unitExpiry n) s) s))

/-- R137 to R139: what a change of its inputs makes of a timer, by its kind: DELAY-ON runs while its coil is ON, its
reset OFF and its gate OPEN, and is IDLE with value 0 and done OFF otherwise; DELAY-ON-HELD keeps its value in a pause
and, once ELAPSED, its done state until its reset; DELAY-OFF is done while its coil is ON and until its delay has
elapsed, and IDLE while its reset is ON or its gate is not OPEN. A timer that starts or resumes starts a new unit. -/
def Obligations.TimerKindsFollowTheirTables : Prop :=
  ∀ t : TimerState,
    let idle := { t with phase := .idle, value := 0, done := false, clock := none }
    let runs := t.coil = true ∧ t.reset = false ∧ t.isOpen = true
    let on := TimerState.settle .delayOn t
    let held := TimerState.settle .delayOnHeld t
    let off := TimerState.settle .delayOff t
    (¬ runs → on = idle) ∧
    (runs → t.phase = .idle → on = { t with phase := .timing, value := 0, done := false, clock := some 0 }) ∧
    (runs → t.phase = .timing ∨ t.phase = .elapsed → on = t) ∧
    (t.reset = true → held = idle) ∧
    (runs → t.phase = .idle ∨ t.phase = .paused → held = { t with phase := .timing, clock := some 0 }) ∧
    (t.reset = false → (t.coil = false ∨ t.isOpen = false) → t.phase = .timing →
      held = { t with phase := .paused, clock := none }) ∧
    (t.reset = false → (t.coil = false ∨ t.isOpen = false) → t.phase = .idle ∨ t.phase = .paused ∨ t.phase = .elapsed →
      held = t) ∧
    (runs → t.phase = .timing ∨ t.phase = .elapsed → held = t) ∧
    (t.reset = true ∨ t.isOpen = false → off = idle) ∧
    (runs → t.phase = .idle ∨ t.phase = .timing ∨ t.phase = .elapsed →
      off = { t with phase := .energised, value := 0, done := true, clock := none }) ∧
    (runs → t.phase = .energised → off = t) ∧
    (t.reset = false → t.isOpen = true → t.coil = false → t.phase = .energised →
      off = { t with phase := .timing, value := 0, clock := some 0 }) ∧
    (t.reset = false → t.isOpen = true → t.coil = false → t.phase = .idle ∨ t.phase = .timing ∨ t.phase = .elapsed →
      off = t) ∧
    (∀ kind (h : TimerInputs), TimerState.takeInputs kind h t =
      let take := fun (v : Option Bool) (put : TimerState → Bool → TimerState) (u : TimerState) =>
        match v with
        | some b => TimerState.settle kind (put u b)
        | none => u
      take h.reset (fun u b => { u with reset := b })
        (take h.coil (fun u b => { u with coil := b }) (take h.standing (fun u b => { u with isOpen := b }) t)))

/-- R20, R129, R134, R142 to R145: no timer value passes its preset, whatever the unit takes, and only an ELAPSED timer
holds it; a counter never passes its preset, and its done state is ON exactly at the preset. An advance is ignored while
the counter's reset is ON or its gate is not OPEN, and once it is done. The rise of its reset makes its value 0 and its
done state OFF; of one event the standing is taken first, then the reset, then the count. A committed pulse advances
the counters whose source is its point, by its count, and no other. Every done state that differs after an event is
handed on once. -/
def Obligations.CountersCountAndNothingPassesItsPreset : Prop :=
  (∀ (setup : TimerSetup) (t : TimerState) (h : TimerInputs), 1 ≤ setup.preset →
    (t.value ≤ setup.preset ∧ (t.phase ≠ .elapsed → t.value < setup.preset)) →
      let u := TimerState.takeInputs setup.kind h t
      let v := TimerState.unitExpiry setup t
      (u.value ≤ setup.preset ∧ (u.phase ≠ .elapsed → u.value < setup.preset)) ∧
      (v.value ≤ setup.preset ∧ (v.phase ≠ .elapsed → v.value < setup.preset))) ∧
  (∀ (preset k : Nat) (c : CounterState) (h : CounterInputs), 1 ≤ preset →
    (c.value ≤ preset ∧ (c.done = true ↔ c.value = preset)) →
      let u := CounterState.takeInputs preset h c
      let v := CounterState.advance preset k c
      (u.value ≤ preset ∧ (u.done = true ↔ u.value = preset)) ∧
      (v.value ≤ preset ∧ (v.done = true ↔ v.value = preset)) ∧
      (c.reset = false → c.isOpen = true → v.value = min preset (c.value + k))) ∧
  (∀ (preset k : Nat) (h : CounterInputs) (c : CounterState),
    let standing := match h.standing with
      | some v => { c with isOpen := v }
      | none => c
    let reset := match h.reset with
      | some true => { standing with reset := true, value := 0, done := false }
      | some false => { standing with reset := false }
      | none => standing
    (c.reset = true ∨ c.isOpen = false ∨ c.done = true → CounterState.advance preset k c = c) ∧
    (c.reset = false → c.isOpen = true → c.done = false → CounterState.advance preset k c =
      if c.value + k < preset then { c with value := c.value + k } else { c with value := preset, done := true }) ∧
    CounterState.takeInputs preset h c = if h.counted then CounterState.advance preset 1 reset else reset) ∧
  (∀ (s : State) (p : Point) (n : Nat), let t := s.countPulse p n
    t = { s with timers := t.timers, echoes := s.echoes ++ doneChanges s.timers t.timers } ∧
    t.timers.timers = s.timers.timers ∧ t.timers.counters.length = s.timers.counters.length ∧
    ∀ i c, s.timers.counters[i]? = some c → t.timers.counters[i]? =
      some (if (s.setup.counter i).source = some p then CounterState.advance (s.setup.counter i).preset n c else c)) ∧
  (∀ a b : TimerUnit, a.timers.length = b.timers.length → a.counters.length = b.counters.length →
    let change := fun (was is : Bool) (source : Source) => if was = is then none else some (HandOff.source source is)
    doneChanges a b =
      ((List.range a.timers.length).filterMap fun n =>
        change (a.timers.getD n TimerState.initial).done (b.timers.getD n TimerState.initial).done (.timer n)) ++
      (List.range a.counters.length).filterMap fun n =>
        change (a.counters.getD n CounterState.initial).done (b.counters.getD n CounterState.initial).done (.counter n))

/-- R146, R147: an input line. A change to the filtered value ends the filter run; a change to the other level starts
the run, or starts it again, or is taken at once with a filter time of 0; a run that has reached the filter time takes
the opposite value. Before the handover to LISTEN the line is only recorded. A command that hands the level already held
counts as a change there and back, which is read from R146 (log 31). -/
def Obligations.InputLinesAreFiltered : Prop :=
  ∀ (s : State) (n : Fin 16) (i : FieldInput) (v : Bool), s.field.inputs[n.val]? = some i →
    let put := fun (j : FieldInput) => { s.field with inputs := s.field.inputs.set n.val j }
    let filter := s.setup.filter n.val
    (s.lifecycle.watchesLines = false →
      SettlesTo (exec (.inputLineChange n v) s) { s with field := put { i with line := v } }) ∧
    (s.lifecycle.watchesLines = true → v = i.filtered →
      SettlesTo (exec (.inputLineChange n v) s) { s with field := put { i with line := v, run := none } }) ∧
    (s.lifecycle.watchesLines = true → v ≠ i.filtered → filter ≠ 0 →
      SettlesTo (exec (.inputLineChange n v) s) { s with field := put { i with line := v, run := some 0 } }) ∧
    (s.lifecycle.watchesLines = true → v ≠ i.filtered → filter = 0 →
      SettlesBy (exec (.inputLineChange n v) s)
        { s with
          field := put { i with line := v, filtered := v, run := none }
          agenda := s.agenda ++ [.source (.input n.val) v] }) ∧
    (HasReached i.run filter →
      SettlesBy (exec (.filterRunExpiry n) s)
        { s with
          field := put { i with filtered := !i.filtered, run := none }
          agenda := s.agenda ++ [.source (.input n.val) (!i.filtered)] }) ∧
    (¬ HasReached i.run filter → SettlesTo (exec (.filterRunExpiry n) s) s)

/-- R149, R150: the driven level, by the first row that applies, and the hold level it leaves; a lifecycle change
decides it anew for every output, with the lifecycle as it stands, a commanded level for its own. R152, R153: the
readback check of an output: a change of the driven level, a readback line change, the settle timer, and the mismatch
timer, which latches the fault, drives the output OFF, writes an absent first-fault record and raises the FAULT line.
A timer that does not stand at the settle time has no expiry. That a READBACK_LINE_CHANGE with the level already held
changes nothing is the model's inference from R152 (DEDUCED, log 31). -/
def Obligations.OutputsAreDrivenAndChecked : Prop :=
  (∀ (life : Lifecycle) (setup : OutputSetup) (o : FieldOutput),
    let d := (FieldOutput.settle life setup o).driven
    let h := (FieldOutput.settle life setup o).hold
    (o.phase = .latched → d = false) ∧
    (o.phase ≠ .latched → life ≠ .active → setup.hold = false → d = false) ∧
    (o.phase ≠ .latched → life ≠ .active → setup.hold = true → d = o.hold) ∧
    (o.phase ≠ .latched → life = .active → d = o.commanded) ∧
    (life = .active → h = d) ∧ (life ≠ .active → h = o.hold) ∧
    (FieldOutput.settle life setup o).commanded = o.commanded ∧
    (o.phase = .latched → (FieldOutput.settle life setup o).phase = .latched) ∧
    (d = o.driven → (FieldOutput.settle life setup o).phase = o.phase ∧
      (FieldOutput.settle life setup o).timer = o.timer) ∧
    (d ≠ o.driven → o.phase = .settling ∨ o.phase = .watching ∨ o.phase = .differing →
      (FieldOutput.settle life setup o).phase = .settling ∧ (FieldOutput.settle life setup o).timer = some 0)) ∧
  (∀ s : State, s.fieldLifecycle = { s with field := { s.field with outputs := s.fieldLifecycle.field.outputs } } ∧
    s.fieldLifecycle.field.outputs.length = s.field.outputs.length ∧
    ∀ n o, s.field.outputs[n]? = some o →
      s.fieldLifecycle.field.outputs[n]? = some (FieldOutput.settle s.lifecycle (s.setup.output n) o)) ∧
  (∀ (s : State) (n : Nat) (v : Bool) (o : FieldOutput), s.field.outputs[n]? = some o →
    s.commandOutput n v = { s with field := { s.field with
      outputs := s.field.outputs.set n
        (FieldOutput.settle s.lifecycle (s.setup.output n) { o with commanded := v }) } }) ∧
  ∀ (s : State) (n : Fin 12) (o : FieldOutput) (v : Bool), s.field.outputs[n.val]? = some o →
    let settle := (s.setup.output n.val).settle
    let put := fun (u : FieldOutput) => { s.field with outputs := s.field.outputs.set n.val u }
    (v = o.readback → SettlesTo (exec (.readbackLineChange n v) s) s) ∧
    (v ≠ o.readback → o.phase = .watching → v ≠ o.driven →
      SettlesTo (exec (.readbackLineChange n v) s)
        { s with field := put { o with readback := v, phase := .differing, timer := some 0 } }) ∧
    (v ≠ o.readback → o.phase = .differing → v = o.driven →
      SettlesTo (exec (.readbackLineChange n v) s)
        { s with field := put { o with readback := v, phase := .watching, timer := none } }) ∧
    (v ≠ o.readback → (o.phase = .off ∨ o.phase = .settling ∨ o.phase = .latched ∨
        o.phase = .watching ∧ v = o.driven ∨ o.phase = .differing ∧ v ≠ o.driven) →
      SettlesTo (exec (.readbackLineChange n v) s) { s with field := put { o with readback := v } }) ∧
    (o.phase = .settling → HasReached o.timer settle → o.readback = o.driven →
      SettlesTo (exec (.settleTimerExpiry n) s)
        { s with field := put { o with phase := .watching, timer := none } }) ∧
    (o.phase = .settling → HasReached o.timer settle → o.readback ≠ o.driven →
      SettlesTo (exec (.settleTimerExpiry n) s)
        { s with field := put { o with phase := .differing, timer := some 0 } }) ∧
    ((o.phase ≠ .settling ∨ ¬ HasReached o.timer settle) → SettlesTo (exec (.settleTimerExpiry n) s) s) ∧
    ((o.phase ≠ .differing ∨ ¬ HasReached o.timer settle) → SettlesTo (exec (.mismatchTimerExpiry n) s) s) ∧
    (o.phase = .differing → HasReached o.timer settle →
      ∃ t u, exec (.mismatchTimerExpiry n) s = .next t ∧ t.field.outputs[n.val]? = some u ∧
        u.phase = .latched ∧ u.driven = false ∧ u.timer = none ∧ u.readback = o.readback ∧
        t.fault.latched = (s.field.latchedOutputs.isEmpty || s.fault.latched) ∧ t.fault.line = true ∧
        (s.fault.record = none →
          t.fault.record = some ⟨.outputReadback, some (.output n.val), s.timeBase, s.lifecycle⟩) ∧
        t.lifecycle = s.lifecycle ∧ t.image = s.image ∧ t.roster = s.roster ∧ t.commit = s.commit ∧
        t.field.inputs = s.field.inputs)

/-! ### Fault record and capture, evaluator, frames as bits -/

/-- R158: the station once its fault unit holds `f`: where the FAULT line has changed, the evaluator is handed OWN-FAULT
and the assembler the line's part of the fault-indication point. -/
def showsFault (s : State) (f : FaultUnit) : State :=
  let line := fun (u : FaultUnit) => u.record.isSome || u.latched
  if line f = line s.fault then { s with fault := f }
  else
    { s with
      fault := f
      asm := { s.asm with faultPart := line f }
      echoes := s.echoes ++ [.source .ownFault (line f)] }

/-- R157: a report: the record is written where it was absent, and the kind's count increases, saturating at 255.
R158: a change of the FAULT line, by a report, by the latched outputs or by a clearing of the record, is handed on.
R163: the record becoming present is a trigger where the fault trigger is set. R161 to R163: the ring keeps the 48
newest records with consecutive indices. The records of one frame have one ordinal, the next one, and the stamp of its
commit; a frame takes an ordinal where capture is ARMED or TRIGGERED and it has a record. A trigger while ARMED takes
the next index, and after the post count of further records capture is FROZEN and takes no more. -/
def Obligations.ReportsAndRecordsAreKept : Prop :=
  (∀ (f : FaultUnit) (k : FaultKind) (subject : Option Subject) (stamp : Word16) (life : Lifecycle),
    f.counts.length = 10 →
    let g := f.takeReport k subject stamp life
    (f.record = none → g.record = some ⟨k, subject, stamp, life⟩) ∧
    (∀ r, f.record = some r → g.record = some r) ∧
    (∀ j, j < 10 → g.counts.getD j 0 =
      if j = k.code ∧ f.counts.getD j 0 < 255 then f.counts.getD j 0 + 1 else f.counts.getD j 0) ∧
    g.line = true ∧ g.latched = f.latched) ∧
  (∀ (s : State) (k : FaultKind) (subject : Option Subject) (life : Lifecycle),
    let capture := if s.fault.record = none ∧ s.setup.capture.faultTrigger = true
      then s.capture.takeTrigger s.setup.capture.postCount else s.capture
    s.takeReport k subject life =
      showsFault { s with capture := capture } (s.fault.takeReport k subject s.timeBase life)) ∧
  (∀ (s : State) (on : Bool), s.latchedIndication on = showsFault s { s.fault with latched := on } ∧
    s.clearRecord on = showsFault s
      { s.fault with record := none, counts := if on then List.replicate 10 0 else s.fault.counts }) ∧
  ∀ (c : CaptureUnit) (stamp : Word16) (ordinal : Byte) (body : RecordBody) (bodies : List RecordBody) (post : Nat),
    let made := fun (bodies : List RecordBody) =>
      let ring := c.ring ++ bodies.mapIdx fun i body => ⟨c.nextIndex + BitVec.ofNat 16 i, ordinal, stamp, body⟩
      { c with ring := ring.drop (ring.length - 48), nextIndex := c.nextIndex + BitVec.ofNat 16 bodies.length }
    (c.ring.length ≤ 48 →
      let d := c.addRecord stamp ordinal body
      d.ring = (c.ring ++ [CaptureRecord.mk c.nextIndex ordinal stamp body]).drop (c.ring.length + 1 - 48) ∧
      d.nextIndex = c.nextIndex + 1 ∧ d.ring.length ≤ 48) ∧
    (c.mode = .armed →
      (c.takeTrigger post).triggerIndex = some c.nextIndex ∧ (c.takeTrigger post).remaining = post ∧
      (c.takeTrigger post).mode = if post = 0 then .frozen else .triggered) ∧
    (c.mode ≠ .armed → c.takeTrigger post = c) ∧
    (c.mode = .armed → c.ring.length ≤ 48 → c.addRecords stamp ordinal bodies = made bodies) ∧
    (c.mode = .triggered → 1 ≤ c.remaining → c.ring.length ≤ 48 →
      c.addRecords stamp ordinal bodies = { made (bodies.take c.remaining) with
        remaining := c.remaining - bodies.length
        mode := if c.remaining ≤ bodies.length then .frozen else .triggered }) ∧
    (c.mode = .frozen ∨ c.mode = .off → c.addRecords stamp ordinal bodies = c) ∧
    (bodies = [] ∨ c.mode = .frozen ∨ c.mode = .off → c.addGroup stamp bodies = c) ∧
    (bodies ≠ [] → c.mode = .armed ∨ c.mode = .triggered →
      c.addGroup stamp bodies =
        { c.addRecords stamp c.nextOrdinal bodies with nextOrdinal := c.nextOrdinal + 1 })

/-- R110, R120, R123, R125: G0 by the lifecycle and the standing; a gate G1 to G8 of a checked configuration has its
parent's state where it is enabled and is CLOSED where it is not. So no gate is OPEN outside ACTIVE, and outside
ACTIVE no event of any kind issues a SET, CLEAR or PULSE request. When G0 opens, every gate reopens QUIET, whatever
its own mode: in a configuration without MARKER terms no edge term fires because of the entry, whatever its result. -/
def Obligations.GatesFollowTheLifecycle : Prop :=
  (∀ (setup : StationSetup) (src : Sources) (life : Lifecycle) (standing : Standing) (n : Nat),
    let state := fun g => (gateStates setup src life standing).getD g .closed
    (state 0 = if life = .active then .opened
      else if life = .joining ∧ standing = .complete then .preview else .closed) ∧
    (1 ≤ n → n ≤ 8 → (parentOf setup)^[3] n = 0 → (setup.gate n).parent ≤ 8 →
      state n = match (setup.gate n).enable with
        | some l => if l.on src then state (setup.gate n).parent else .closed
        | none => state (setup.gate n).parent) ∧
    (life ≠ .active → state n ≠ .opened) ∧
    (state 0 = .closed → state n = .closed) ∧
    (∀ (event : EvalEvent) (e : Evaluator), life ≠ .active →
      (takeEvent (EvalContext.mk setup life standing) event e).requests = [])) ∧
  ∀ (ctx : EvalContext) (e : Evaluator), ctx.life = .active → (∀ g ∈ e.gates, g ≠ .opened) →
    (∀ t ∈ ctx.setup.terms, ∀ n, t.target ≠ .marker n) → (takeEvent ctx .lifecycle e).requests = []

/-- R117: a term is touched by the sources that have changed, or by its gate, whose state differs from before. -/
def Touched (t : Term) (changed : List Source) (was is : List GateState) : Prop :=
  (∃ l ∈ t.literals, l.source ∈ changed) ∨ is.getD t.gate .closed ≠ was.getD t.gate .closed

/-- R119, R124: a level target whose value was `old` is now `new`: where a touched term names it, the OR of the gated
results of its terms; in a PREVIEW gate only MARKER and CONTRIBUTE terms count. -/
def FollowsItsTerms (terms : List Term) (touched : Term → Prop) (results : List Bool) (gates : List GateState)
    (target : Target) (old new : Bool) : Prop :=
  ((∃ t ∈ terms, t.target = target ∧ touched t) →
    (new = true ↔ ∃ i t, terms[i]? = some t ∧ t.target = target ∧ results.getD i false = true ∧
      (gates.getD t.gate .closed = .opened ∨ gates.getD t.gate .closed = .preview ∧
        ((∃ n, target = .marker n) ∨ ∃ p, target = .contribute p)))) ∧
  ((∀ t ∈ terms, t.target = target → ¬ touched t) → new = old)

/-- R119, R120, R123, R124, R125, R128, R130: one pass of the evaluator, whatever the event. Gates take their states. A
touched term takes its result over the values held, and every other keeps its own. A gate that opens gives its edge
terms their remembered results anew: the result where it reopens QUIET, as every gate does once G0 has opened in the
event, and OFF where it reopens FIRE. An edge term fires where it is touched, its gate OPEN, its result ON and its
remembered result OFF, in ascending term number, and remembers its result. Every level target follows its terms. Markers
that changed join the end of the cascade list, each once. -/
def Obligations.EvaluatorFollowsItsTerms : Prop :=
  ∀ (ctx : EvalContext) (changed : List Source) (p : PassState),
    let terms := ctx.setup.terms
    let q := evalPass ctx changed p
    let e := p.eval
    let f := q.eval
    let was := fun (g : Nat) => e.gates.getD g .closed
    let is := fun (g : Nat) => f.gates.getD g .closed
    let touched := fun (t : Term) => Touched t changed e.gates f.gates
    let result := fun (i : Nat) => f.results.getD i false
    let opens := fun (g : Nat) => is g = .opened ∧ was g ≠ .opened
    let quiet := fun (g : Nat) => opens 0 ∨ (∃ b, (0, b) ∈ p.opened) ∨ g = 0 ∨ (ctx.setup.gate g).mode = .quiet
    let held := fun (i : Nat) (t : Term) =>
      (opens t.gate ∧ quiet t.gate ∧ result i = true) ∨ (¬ opens t.gate ∧ e.remembered.getD i false = true)
    let fires := fun (i : Nat) (t : Term) =>
      t.target.isRequest = true ∧ touched t ∧ is t.gate = .opened ∧ result i = true ∧ ¬ held i t
    let follows := FollowsItsTerms terms touched f.results f.gates
    let row := fun (target : Nat → Target) (old new : List Bool) =>
      new.length = old.length ∧ ∀ n, n < old.length → follows (target n) (old.getD n false) (new.getD n false)
    let differs := fun (n : Nat) => f.src.markers.getD n false ≠ e.src.markers.getD n false
    f.gates = gateStates ctx.setup e.src ctx.life ctx.standing ∧
    f.src = { e.src with markers := f.src.markers } ∧
    f.countRemembered = e.countRemembered ∧ f.triggerHanded = e.triggerHanded ∧
    f.results.length = terms.length ∧ f.remembered.length = terms.length ∧
    (∀ i t, terms[i]? = some t →
      (touched t → result i = t.result e.src) ∧ (¬ touched t → result i = e.results.getD i false) ∧
      (t.target.isRequest = true →
        (touched t → is t.gate = .opened → f.remembered.getD i false = result i) ∧
        (¬ (touched t ∧ is t.gate = .opened) → (f.remembered.getD i false = true ↔ held i t)))) ∧
    (∃ fired : List Nat, fired.Pairwise (· < ·) ∧ (∀ i, i ∈ fired ↔ ∃ t, terms[i]? = some t ∧ fires i t) ∧
      q.requests = p.requests ++ fired.filterMap fun i => terms[i]?.bind Term.request?) ∧
    row .marker e.src.markers f.src.markers ∧ row .output e.levels.outputs f.levels.outputs ∧
    row .timerCoil e.levels.coils f.levels.coils ∧ row .timerReset e.levels.resets f.levels.resets ∧
    row .countReset e.levels.countResets f.levels.countResets ∧
    f.levels.contribs.map Prod.fst = e.levels.contribs.map Prod.fst ∧
    (∀ (i : Nat) (point : Point) (old new : Bool), e.levels.contribs[i]? = some (point, old) →
      f.levels.contribs[i]? = some (point, new) → follows (.contribute point) old new) ∧
    (∃ l, l.Pairwise (· < ·) ∧ (∀ i, i ∈ l ↔ ∃ t, terms[i]? = some t ∧ touched t) ∧ q.touched = p.touched ++ l) ∧
    (∃ l, l.Pairwise (· < ·) ∧ (∀ g, g ∈ l ↔ g < 9 ∧ is g ≠ was g) ∧ q.moved = p.moved ++ l) ∧
    (∃ l, (∀ g b, (g, b) ∈ l ↔ opens g ∧ (b = true ↔ quiet g)) ∧ q.opened = p.opened ++ l) ∧
    ∃ joined, joined.Pairwise (· < ·) ∧ (∀ n, n ∈ joined ↔ differs n ∧ n ∉ p.cascade) ∧
      q.cascade = p.cascade ++ joined

/-- R116, R117: every term's result is its result over the values held, but for terms that read a source whose change is
still to be taken: a point of `waiting`, or a marker of the cascade list. -/
def ResultsAgree (setup : StationSetup) (e : Evaluator) (waiting : List Source) (cascade : List Nat) : Prop :=
  ∀ (i : Nat) (t : Term), setup.terms[i]? = some t →
    (∀ l ∈ t.literals, l.source ∉ waiting ∧ ∀ m ∈ cascade, l.source ≠ .marker m) →
      e.results.getD i false = t.result e.src

/-- R116, R121, R123, R125 to R128, R130: an event is taken whole: a first pass for what it changes, then one for the
marker at the head of the cascade list until the list is empty, then the counters. Where no marker depends on itself,
as in every loaded configuration, the list is empty at the end. A source other than a point that hands the value held
changes nothing. A counter whose COUNT terms were touched, or whose gate changed, in any pass, and whose gate is OPEN,
remembers its count level, and is handed one count where the level is ON and was not; a gate that opened decides what it
was. Results agree with the values held once their changes have been taken, those of points applied together too. The
model's own, read from the rules and not stated by them: OWN-ACTIVE changes with G0 at whichever event comes first
after the lifecycle change (log 14), 1056 passes are enough (log 32), and the points of one frame take their values
together (log 36). -/
def Obligations.EvaluatorEventsAreTakenWhole : Prop :=
  (∀ (ctx : EvalContext) (fuel m : Nat) (rest : List Nat) (p : PassState),
    (p.cascade = [] → evalCascade ctx fuel p = p) ∧
    (p.cascade = m :: rest →
      evalCascade ctx (fuel + 1) p = evalCascade ctx fuel (evalPass ctx [.marker m] { p with cascade := rest }))) ∧
  (∀ (ctx : EvalContext) (changed : List Source) (e : Evaluator), e.src.markers.length = 32 →
    (∀ m, ¬ Relation.TransGen (dependsOn ctx.setup) m m) →
      (evalCascade ctx 1056 (evalPass ctx changed ⟨e, [], [], [], [], []⟩)).cascade = []) ∧
  (∀ (ctx : EvalContext) (changed waiting : List Source) (p : PassState),
    ResultsAgree ctx.setup p.eval (changed ++ waiting) p.cascade →
      ResultsAgree ctx.setup (evalPass ctx changed p).eval waiting (evalPass ctx changed p).cascade) ∧
  (∀ (setup : StationSetup) (e : Evaluator) (waiting : List Source) (changes : List (Point × Bool)),
    ResultsAgree setup e waiting [] →
      ResultsAgree setup { e with src := e.src.putPoints changes } (waiting ++ changes.map fun c => .point c.1) []) ∧
  (∀ (ctx : EvalContext) (event : EvalEvent) (e : Evaluator),
    let idle := ∃ x v, event = .source x v ∧ (∀ p, x ≠ .point p) ∧ e.src.value x = v
    let src := match event with
      | .source x v => e.src.put x v
      | .lifecycle => e.src
    let own := decide (ctx.life = .active)
    let changed :=
      (match event with
        | .source x _ => [x]
        | .lifecycle => []) ++ if src.ownActive = own then [] else [.ownActive]
    let begun : Evaluator := { e with src := { src with ownActive := own } }
    let p := evalCascade ctx 1056 (evalPass ctx changed ⟨begun, [], [], [], [], []⟩)
    let o := takeEvent ctx event e
    (idle → o = ⟨e, [], []⟩) ∧
    (¬ idle →
      o.eval = { p.eval with countRemembered := o.eval.countRemembered } ∧ o.requests = p.requests ∧
      o.eval.countRemembered.length = 8 ∧ o.counted.Pairwise (· < ·) ∧ (∀ n ∈ o.counted, n < 8) ∧
      (∀ waiting, p.cascade = [] → ResultsAgree ctx.setup e (changed ++ waiting) [] →
        ResultsAgree ctx.setup o.eval waiting []) ∧
      ∀ n, n < 8 →
        let feeds := fun (t : Term) => t ∈ ctx.setup.terms ∧ t.target = .count n
        let gate := (ctx.setup.counter n).gate
        let looked := (∃ i t, ctx.setup.terms[i]? = some t ∧ feeds t ∧ i ∈ p.touched) ∨ gate ∈ p.moved ∧ ∃ t, feeds t
        let runs := looked ∧ p.eval.gates.getD gate .closed = .opened
        let level := ∃ i t, ctx.setup.terms[i]? = some t ∧ feeds t ∧ p.eval.gates.getD t.gate .closed = .opened ∧
          p.eval.results.getD i false = true
        let opened := fun (quiet : Bool) => ∃ g, (g, quiet) ∈ p.opened ∧ (g = gate ∨ ∃ t, feeds t ∧ t.gate = g)
        let was := opened true ∧ level ∨ ¬ opened true ∧ ¬ opened false ∧ e.countRemembered.getD n false = true
        (n ∈ o.counted ↔ runs ∧ level ∧ ¬ was) ∧
        (runs → (o.eval.countRemembered.getD n false = true ↔ level)) ∧
        (¬ runs → o.eval.countRemembered.getD n false = e.countRemembered.getD n false)))

/-- R127, R131: a command ends when every hand-off of it has been taken, each once, by the block it is for, those
between two blocks in their order; those that answer them are taken too, and one is left only behind 4096 of them (the
model's choice: log 4). The evaluator takes source changes and the lifecycle (R127), the field lines the lifecycle
(R149), the counters pulses (R20), capture a group with the stamp of its commit (R161), the fault unit reports (R157).
R129: of an event each timer and counter takes its gate's standing, coil, reset and count, each field output its
commanded level, each own contribution point its desired value, where they differ; the requests of the terms that
fired reach the list in their order, and the rise of the trigger literal capture. -/
def Obligations.HandOffsReachTheirBlocks : Prop :=
  (∀ s : State, ∃ n, Takes n s s.finish ∧ s.finish.agenda = [] ∧ (s.finish.echoes = [] ∨ 4096 ≤ n)) ∧
  (∀ s : State,
    (∀ changes, s.takeHandOff (.pointsApplied changes) =
      { s with eval := { s.eval with src := s.eval.src.putPoints changes } }) ∧
    (∀ source on, s.takeHandOff (.source source on) = s.takeEvalEvent (.source source on)) ∧
    s.takeHandOff .lifecycleToEvaluator = s.takeEvalEvent .lifecycle ∧
    s.takeHandOff .lifecycleToField = s.fieldLifecycle ∧
    (∀ p n, s.takeHandOff (.pulse p n) = s.countPulse p n) ∧
    (∀ bodies, s.takeHandOff (.group bodies) = { s with capture := s.capture.addGroup s.timeBase bodies }) ∧
    ∀ kind subject life, s.takeHandOff (.report kind subject life) = s.takeReport kind subject life) ∧
  (∀ (src : Sources) (changes : List (Point × Bool)), (changes.map Prod.fst).Nodup →
    (∀ p v, (p, v) ∈ changes → p < src.points.length → (src.putPoints changes).value (.point p) = v) ∧
    (∀ x, (∀ p v, (p, v) ∈ changes → x ≠ .point p) → (src.putPoints changes).value x = src.value x)) ∧
  ∀ (s : State) (event : EvalEvent), (s.eval.levels.contribs.map Prod.fst).Nodup →
    let o := takeEvent ⟨s.setup, s.lifecycle, s.image.standing⟩ event s.eval
    let a := s.eval
    let b := o.eval
    let t := s.takeEvalEvent event
    let u := o.requests.foldl State.takeEdgeRequest { s with eval := b }
    let change := fun (old new : Bool) => if old = new then none else some new
    let standing := fun (g : Nat) =>
      change (decide (a.gates.getD g .closed = .opened)) (decide (b.gates.getD g .closed = .opened))
    let level := fun (levels : Levels → List Bool) (n : Nat) =>
      change ((levels a.levels).getD n false) ((levels b.levels).getD n false)
    Untouched s t ∧ t.agenda = s.agenda ∧ t.freeIndex = s.freeIndex ∧
    t.asm.requests = u.asm.requests ∧ t.asm.faultPart = u.asm.faultPart ∧ t.fault = u.fault ∧
    t.echoes = u.echoes ++ doneChanges s.timers t.timers ∧
    t.timers.timers.length = s.timers.timers.length ∧ t.timers.counters.length = s.timers.counters.length ∧
    (∀ (n : Nat) (v : TimerState), s.timers.timers[n]? = some v → t.timers.timers[n]? =
      some (TimerState.takeInputs (s.setup.timer n).kind
        ⟨standing (s.setup.timer n).gate, level Levels.coils n, level Levels.resets n⟩ v)) ∧
    (∀ (n : Nat) (v : CounterState), s.timers.counters[n]? = some v → t.timers.counters[n]? =
      some (CounterState.takeInputs (s.setup.counter n).preset
        ⟨standing (s.setup.counter n).gate, level Levels.countResets n, decide (n ∈ o.counted)⟩ v)) ∧
    t.field.outputs.length = s.field.outputs.length ∧
    (∀ (n : Nat) (v : FieldOutput), n < 12 → s.field.outputs[n]? = some v → t.field.outputs[n]? =
      some (match level Levels.outputs n with
        | some on => FieldOutput.settle s.lifecycle (s.setup.output n) { v with commanded := on }
        | none => v)) ∧
    t.asm.rows.length = s.asm.rows.length ∧
    (∀ (i : Nat) (r : ContributionRow), s.asm.rows[i]? = some r →
      (∀ v, (r.point, v) ∈ b.levels.contribs → (r.point, v) ∉ a.levels.contribs →
        t.asm.rows[i]? = some { r with terms := v }) ∧
      ((∀ v, (r.point, v) ∈ b.levels.contribs → (r.point, v) ∈ a.levels.contribs) → t.asm.rows[i]? = some r)) ∧
    (∀ l, s.setup.capture.trigger = some l →
      t.eval = { b with triggerHanded := l.on b.src } ∧
      t.capture = if l.on b.src = true ∧ a.triggerHanded = false
        then u.capture.takeTrigger s.setup.capture.postCount else u.capture) ∧
    (s.setup.capture.trigger = none → t.eval = b ∧ t.capture = u.capture)

/-- R38: the register takes one covered bit: with a feedback bit of one, stages 12, 5 and 0 are inverted after the
shift. -/
def stageAfter (r : Word16) (bit : Bool) (i : Nat) : Bool :=
  let feedback := bit ^^ r.getLsbD 15
  let shifted := decide (1 ≤ i) && r.getLsbD (i - 1)
  shifted ^^ (feedback && (decide (i = 12) || decide (i = 5) || decide (i = 0)))

/-- R26 to R40: every frame whose fields are in range is read back from the bits that its sender sends. R38: the check
register starts at all ones and takes each bit of the key and the body in order; it is sent stage 15 first; sixteen bits
are the check field exactly where the register continued through them holds zero, and no other frame is well-formed. -/
def Obligations.DecodingInvertsEncoding : Prop :=
  (∀ f : Frame, frameOk f = true → decodeFrame (encodeFrame f) = .ok f ∧ checkRegister (encodeFrame f) = 0 ∧
    encodeFrame f = coveredBits f ++ checkBits (coveredBits f)) ∧
  checkRegister [] = 0xFFFF#16 ∧
  (∀ bits bit i, i < 16 →
    (checkRegister (bits ++ [bit])).getLsbD i = stageAfter (checkRegister bits) bit i) ∧
  (∀ bits, checkBits bits = (List.range 16).map fun i => (checkRegister bits).getLsbD (15 - i)) ∧
  (∀ bits check, check.length = 16 → (check = checkBits bits ↔ checkRegister (bits ++ check) = 0)) ∧
  (∀ bits f, decodeFrame bits = .ok f → checkRegister bits = 0)

/-! ### Invariants of every step -/

/-- R46, R57, R58, R72, R95, R96, R106, R157, R161: the idle, veto, failure and attempt counts stay in their ranges;
so do the ten per-kind fault counts and the capture ring; and the LOSS set, the joiners owed a BUSY and the candidates
stay in ascending order. -/
def Obligations.CountsStayInRange : Prop :=
  ∀ s t : State, step s = .next t →
    (CountsInRange s → CountsInRange t) ∧ (RecordsInRange s → RecordsInRange t) ∧ (SetsAscend s → SetsAscend t)

/-- R94, R48, R56, R62, R176: the image standing is one that the lifecycle allows; a station with a frame in flight is on
the medium; the loader works, and the reset holds, in START only; of a frame found stopped there is no record. -/
def Obligations.StandingFitsTheLifecycle : Prop :=
  ∀ s t : State, LifecycleFits s → step s = .next t → LifecycleFits t

/-- R67, R69: one pending and one in-flight request of a point at most, in flight only while an UPDATE is, and never
more than 255 pulses of a point. -/
def Obligations.PulsesNeverExceedTheirLimit : Prop :=
  ∀ s t : State, RequestsFit s → step s = .next t → RequestsFit t

/-- R157: a present first-fault record keeps its contents through every step but a CLEAR-FAULT, a power-on reset and a
RESET line assertion. -/
def Obligations.FirstFaultRecordIsKept : Prop :=
  ∀ (s t : State) (r : FaultRecord), s.fault.record = some r →
    (∀ c rest, s.pending = c :: rest →
      c ≠ .powerOnReset ∧ c ≠ .resetLineAssertion ∧ ∀ x y tag counts, c ≠ .clearFault x y tag counts) →
    step s = .next t → t.fault.record = some r

/-- The state after a power-on reset meets the invariants. -/
def Obligations.ResetMeetsTheInvariants : Prop :=
  CountsInRange State.reset ∧ LifecycleFits State.reset ∧ RequestsFit State.reset ∧ RecordsInRange State.reset ∧
    SetsAscend State.reset ∧ HeldInReset State.reset ∧ State.reset.Quiet

end Statements
end

