-- ==== Sys2Proof/Laws/Cells.lean ====
section
/-! SUPPORT. Bit cells (R44, R45, R48): what the shape of a pulse is read as, what a level does to the record by its
place, and what it means to the sender. -/

namespace Sys2Proof.Machine

/-- Every cell time has whole eighths. -/
theorem cellTime_eighths (r : BitRate) : ∃ k, r.cellTime = 8 * k ∧ 0 < k := by
  cases r
  exacts [⟨1000, rfl, by decide⟩, ⟨500, rfl, by decide⟩, ⟨250, rfl, by decide⟩, ⟨125, rfl, by decide⟩]

theorem eighths_eq (k n : Nat) : eighths (8 * k) n = n * k := by
  simp only [eighths]
  rw [show n * (8 * k) = n * k * 8 by ring, Nat.mul_div_cancel _ (by decide)]

/-! ### Shapes -/

theorem cellBroken_iff {t : Nat} {w : Waveform} :
    cellBroken t w = true ↔ w.first.length < eighths t 1 ∨
      (eighths t 3 < w.first.length ∧ w.first.length < eighths t 5) ∨ eighths t 7 < w.first.length ∨
      ∃ p ∈ w.others, p.edge < w.first.edge + eighths t 7 := by
  simp [cellBroken, or_assoc]

/-- R45: nothing is read from a broken cell. -/
theorem readCell_broken {t : Nat} {w : Waveform} (h : cellBroken t w = true) : readCell t w = .broken := by
  simp [readCell, h]

/-- R44: a pulse that is not broken is read by its end. -/
theorem readCell_whole {k : Nat} {w : Waveform} (pos : 0 < k) (h : cellBroken (8 * k) w = false) :
    readCell (8 * k) w = .bit (decide (w.first.length ≤ eighths (8 * k) 4)) := by
  have shape := cellBroken_iff.not.mp (by simp [h] : ¬ cellBroken (8 * k) w = true)
  simp only [readCell, h, dominantAt, eighths_eq, List.any_cons, Bool.false_eq_true, if_false] at *
  push Not at shape
  have later : (w.others.any fun p => decide (p.edge ≤ w.first.edge + 4 * k) &&
      decide (w.first.edge + 4 * k < p.edge + p.length)) = false := by
    simp only [List.any_eq_false, Bool.and_eq_true, decide_eq_true_eq, not_and]
    intro p mem le
    have := shape.2.2.2 p mem
    omega
  simp only [later, Bool.or_false, Cell.bit.injEq]
  by_cases short : w.first.length ≤ 4 * k <;> simp [short]; try omega

theorem startRecord_whole {t : Nat} {w : Waveform} (h : startBroken t w = false) : startRecord t w = [] := by
  simp [startRecord, h]

theorem startRecord_broken {t : Nat} {w : Waveform} (h : startBroken t w = true) : startRecord t w = [.broken] := by
  simp [startRecord, h]

/-! ### Places -/

theorem edgePlace_within {t e : Nat} (h : e < eighths t 7) : edgePlace t e = .within := by simp [edgePlace, h]

theorem edgePlace_opening {t e : Nat} (from_ : eighths t 7 ≤ e) (by_ : e ≤ eighths t 9) : edgePlace t e = .opening := by
  simp [edgePlace, from_, by_]

theorem edgePlace_slot {t e : Nat} (from_ : eighths t 9 < e) (by_ : e ≤ eighths t 11) : edgePlace t e = .slot := by
  have : eighths t 7 ≤ eighths t 9 := by simp only [eighths]; omega
  simp [edgePlace, by_, show ¬ e < eighths t 7 by omega, from_]

theorem edgePlace_stopped {t e : Nat} (from_ : eighths t 11 < e) : edgePlace t e = .stopped := by
  have : eighths t 7 ≤ eighths t 9 := by simp only [eighths]; omega
  have : eighths t 9 ≤ eighths t 11 := by simp only [eighths]; omega
  simp [edgePlace, show ¬ e < eighths t 7 by omega, show ¬ e ≤ eighths t 9 by omega,
    show ¬ e ≤ eighths t 11 by omega]

@[simp] theorem takeCells_nil (t : Nat) (cells : List Cell) : takeCells t cells [] = some cells := rfl

@[simp] theorem takeCells_cons (t : Nat) (cells : List Cell) (w : Waveform) (ws : List Waveform) :
    takeCells t cells (w :: ws) = (takeCell t cells w).bind fun cells => takeCells t cells ws := by
  cases h : takeCell t cells w <;> simp [takeCells, h]

/-- R44, R45, R47, R48: what a level does to the record. -/
theorem takeCell_spec (t : Nat) (cells : List Cell) (w : Waveform) :
    takeCell t cells w =
      if cells = [] ∧ w.first.edge = 0 then some (startRecord t w)
      else if w.first.edge < eighths t 7 then some (cells.dropLast ++ [.broken])
      else if w.first.edge ≤ eighths t 9 then some (cells ++ [readCell t w])
      else if w.first.edge ≤ eighths t 11 then some cells
      else none := by
  simp only [takeCell, opensStart, edgePlace, breakLast, Bool.and_eq_true, List.isEmpty_iff, decide_eq_true_eq]
  split_ifs <;> rfl

/-- R48: a level that finds the frame stopped leaves no record, whatever levels stand around it. -/
theorem takeCells_append (t : Nat) (cells : List Cell) (before after : List Waveform) :
    takeCells t cells (before ++ after) = (takeCells t cells before).bind fun cells => takeCells t cells after := by
  induction before generalizing cells with
  | nil => rfl
  | cons w ws ih => cases h : takeCell t cells w <;> simp [h, ih]

/-- R44, R45, R49, R51: what a level means to the sender of `sent`. -/
theorem sentStanding_spec (t : Nat) (sent : List Bool) (cells : List Cell) (w : Waveform) :
    sentStanding t sent cells w =
      if cells = [] ∧ w.first.edge = 0 then some (if startBroken t w then .aborts else .continues)
      else if w.first.edge < eighths t 7 then some .aborts
      else if w.first.edge ≤ eighths t 9 then
        sent[cells.length]?.map fun bit => senderStanding cells.length bit (readCell t w)
      else sent[cells.length]?.map fun _ => .aborts := by
  simp only [sentStanding, opensStart, edgePlace, Bool.and_eq_true, List.isEmpty_iff, decide_eq_true_eq]
  split_ifs <;> rfl

/-! ### What is driven -/

/-- R49: the sender of a frame drives its next bit. -/
theorem drives_bit {s : State} {fl : Flight} {cells : List Cell} {bit marked : Bool} (flies : s.commit.flight = some fl)
    (record : s.commit.reception = some cells) (next : (encodeFrame fl.frame)[cells.length]? = some bit) :
    s.drives marked = [drivenBit s.cellTime bit] := by
  simp [State.drives, flies, record, next]

/-- R52: a station that is not participating and sends nothing drives nothing. -/
theorem drives_outside {s : State} {marked : Bool} (flies : s.commit.flight = none)
    (out : s.lifecycle.participates = false) : s.drives marked = [] := by
  unfold State.drives
  cases h : s.commit.reception with
  | none => simp [flies]
  | some cells => cases j : judgeCells cells <;> simp [flies, j, out]

end Sys2Proof.Machine
end

