-- ==== Sys2Proof/Laws/HandOffs.lean ====
section
/-! SUPPORT. What the taking of hand-offs does to the state. A relation that each block's own operation keeps holds
between a state and the end of its command (`Carried.finish`); `Untouched` is one such relation. -/

namespace Sys2Proof.Machine

/-- A reflexive and transitive relation that every operation a hand-off can reach keeps. -/
structure Kept (R : State → State → Prop) : Prop where
  refl    : ∀ s, R s s
  trans   : ∀ {a b c}, R a b → R b c → R a c
  free    : ∀ (s : State) k, R s { s with freeIndex := k }
  echoes  : ∀ (s : State) l, R s { s with echoes := l }
  eval    : ∀ (s : State) e, R s { s with eval := e }
  timers  : ∀ (s : State) u, R s { s with timers := u }
  report  : ∀ (s : State) k subject life, R s (s.takeReport k subject life)
  trigger : ∀ s : State, R s s.captureTrigger
  group   : ∀ (s : State) bodies, R s (s.captureGroup bodies)
  request : ∀ (s : State) r, R s (s.takeEdgeRequest r)
  output  : ∀ (s : State) n v, R s (s.commandOutput n v)
  field   : ∀ s : State, R s s.fieldLifecycle
  desired : ∀ (s : State) p v, R s (s.writeDesired p v)

/-- The same for a relation that leaves the hand-offs still waiting free. -/
structure Carried (R : State → State → Prop) : Prop extends Kept R where
  agenda  : ∀ (s : State) l, R s { s with agenda := l }

namespace Kept

variable {R : State → State → Prop} (h : Kept R)
include h

theorem foldl {α : Type} (f : State → α → State) (hf : ∀ s a, R s (f s a)) :
    ∀ (l : List α) (s : State), R s (l.foldl f s)
  | [], s => h.refl s
  | a :: l, s => h.trans (hf s a) (foldl f hf l (f s a))

theorem draw (s : State) (n : Nat) : R s (s.draw n).2 := by
  unfold State.draw
  split
  · exact h.refl s
  · exact h.free s _

theorem putTimers (s : State) (u : TimerUnit) : R s (s.putTimers u) :=
  h.trans (h.timers s u) (h.echoes { s with timers := u } (s.echoes ++ doneChanges s.timers u))

theorem handToField (s : State) (a b : Evaluator) : R s (s.handToField a b) := by
  unfold State.handToField
  refine h.foldl _ (fun s n => ?_) _ _
  split
  · exact h.output _ _ _
  · exact h.refl _

theorem handToAssembler (s : State) (a b : Evaluator) : R s (s.handToAssembler a b) := by
  unfold State.handToAssembler
  refine h.foldl _ (fun s e => ?_) _ _
  dsimp only
  split
  · exact h.refl _
  · exact h.desired _ _ _

theorem handToCapture (s : State) : R s s.handToCapture := by
  unfold State.handToCapture
  split
  case h_1 l _ =>
    refine h.trans (h.eval s { s.eval with triggerHanded := l.on s.eval.src }) ?_
    dsimp only
    split
    · exact h.trigger _
    · exact h.refl _
  · exact h.refl s

theorem takeEvalEvent (s : State) (event : EvalEvent) : R s (s.takeEvalEvent event) := by
  unfold State.takeEvalEvent
  refine h.trans ?_ (h.handToCapture _)
  refine h.trans ?_ (h.handToAssembler _ _ _)
  refine h.trans ?_ (h.handToField _ _ _)
  refine h.trans ?_ (h.putTimers _ _)
  exact h.trans (h.eval s _) (h.foldl _ h.request _ _)

theorem takeHandOff (s : State) (e : HandOff) : R s (s.takeHandOff e) := by
  cases e with
  | pointsApplied changes => exact h.eval s _
  | source src on => exact h.takeEvalEvent s _
  | lifecycleToEvaluator => exact h.takeEvalEvent s _
  | lifecycleToField => exact h.field s
  | pulse p n => exact h.putTimers s _
  | group bodies => exact h.group s bodies
  | report k subject life => exact h.report s k subject life

theorem drawPlace (s : State) (l : List HandOff) : R s (s.drawPlace l).2 := h.draw s _

theorem takeEcho (s : State) : R s s.takeEcho := by
  unfold State.takeEcho
  dsimp only
  split
  · exact h.trans (h.drawPlace s s.echoes) (h.trans (h.echoes _ _) (h.takeHandOff _ _))
  · exact h.drawPlace s s.echoes

theorem runEchoes : ∀ (n : Nat) (s : State), R s (runEchoes n s)
  | 0, s => h.refl s
  | n + 1, s => by
    unfold Machine.runEchoes
    split
    · exact h.refl s
    · exact h.trans (h.takeEcho s) (runEchoes n _)

theorem someEchoes (s : State) : R s s.someEchoes := by
  unfold State.someEchoes
  split
  · exact h.refl s
  · dsimp only
    exact h.trans (h.draw s _) (h.runEchoes _ _)

end Kept

namespace Carried

variable {R : State → State → Prop} (h : Carried R)
include h

theorem takeTask (s : State) : R s s.takeTask := by
  unfold State.takeTask
  dsimp only
  refine h.trans (h.toKept.someEchoes s) (h.trans (h.toKept.drawPlace _ s.someEchoes.agenda) ?_)
  split
  · exact h.trans (h.agenda _ _) (h.toKept.takeHandOff _ _)
  · exact h.refl _

theorem runTasks : ∀ (n : Nat) (s : State), R s (runTasks n s)
  | 0, s => h.refl s
  | n + 1, s => h.trans (h.takeTask s) (runTasks n _)

theorem someTasks (s : State) : R s s.someTasks := by
  unfold State.someTasks
  dsimp only
  exact h.trans (h.toKept.draw s _) (h.trans (h.runTasks _ _) (h.toKept.someEchoes _))

/-- The end of a command. -/
theorem finish (s : State) : R s s.finish := h.trans (h.runTasks _ s) (h.toKept.runEchoes _ _)

end Carried

/-- A block that takes a hand-off posts no hand-off of the command: what it hands on in answer waits among the echoes. -/
theorem keepsAgenda_kept : Kept fun s t => t.agenda = s.agenda where
  refl _ := rfl
  trans h k := k.trans h
  free _ _ := rfl
  echoes _ _ := rfl
  eval _ _ := rfl
  timers _ _ := rfl
  report s k subject life := by
    simp only [State.takeReport, State.faultLineMoved]
    repeat' split
    all_goals rfl
  trigger _ := rfl
  group _ _ := rfl
  request s r := by
    simp only [State.takeEdgeRequest, State.report, State.takeReport, State.faultLineMoved]
    repeat' split
    all_goals rfl
  output _ _ _ := rfl
  field _ := rfl
  desired _ _ _ := rfl

@[simp] theorem takeHandOff_agenda (s : State) (e : HandOff) : (s.takeHandOff e).agenda = s.agenda :=
  keepsAgenda_kept.takeHandOff s e

@[simp] theorem someEchoes_agenda (s : State) : s.someEchoes.agenda = s.agenda := keepsAgenda_kept.someEchoes s

theorem Untouched.refl (s : State) : Untouched s s := by constructor <;> rfl

theorem Untouched.trans {a b c : State} (h : Untouched a b) (k : Untouched b c) : Untouched a c := by
  constructor <;> first
    | exact k.pending.trans h.pending | exact k.lifecycle.trans h.lifecycle | exact k.timeBase.trans h.timeBase
    | exact k.loader.trans h.loader | exact k.commit.trans h.commit | exact k.image.trans h.image
    | exact k.roster.trans h.roster | exact k.join.trans h.join | exact k.service.trans h.service
    | exact k.inputs.trans h.inputs | exact k.lossSet.trans h.lossSet | exact k.rollTimer.trans h.rollTimer
    | exact k.rollDue.trans h.rollDue | exact k.joinSlot.trans h.joinSlot | exact k.partSlot.trans h.partSlot
    | exact k.busySet.trans h.busySet | exact k.responseSlot.trans h.responseSlot
    | exact k.releaseSlot.trans h.releaseSlot | exact k.links.trans h.links

theorem faultLineMoved_untouched (before : Bool) (s : State) : Untouched s (s.faultLineMoved before) := by
  unfold State.faultLineMoved; split <;> constructor <;> rfl

theorem takeReport_untouched (s : State) (k : FaultKind) (subject : Option Subject) (life : Lifecycle) :
    Untouched s (s.takeReport k subject life) := by
  unfold State.takeReport
  refine Untouched.trans ?_ (faultLineMoved_untouched _ _)
  split <;> constructor <;> rfl

theorem report_untouched (s : State) (k : FaultKind) (subject : Option Subject) :
    Untouched s (s.report k subject) := takeReport_untouched s k subject s.lifecycle

theorem writeDesired_untouched (s : State) (p : Point) (v : Bool) : Untouched s (s.writeDesired p v) := by
  constructor
  case links =>
    simp only [State.writeDesired, List.map_map]
    refine List.map_congr_left fun r _ => ?_
    simp only [Function.comp]
    split <;> rfl
  all_goals rfl

theorem takeEdgeRequest_untouched (s : State) (r : EdgeRequest) : Untouched s (s.takeEdgeRequest r) := by
  unfold State.takeEdgeRequest
  split
  · constructor <;> rfl
  · constructor <;> rfl
  · split
    · constructor <;> rfl
    · exact report_untouched s _ _
  all_goals exact Untouched.refl s

theorem untouched_carried : Carried Untouched where
  refl := Untouched.refl
  trans := Untouched.trans
  free _ _ := by constructor <;> rfl
  agenda _ _ := by constructor <;> rfl
  echoes _ _ := by constructor <;> rfl
  eval _ _ := by constructor <;> rfl
  timers _ _ := by constructor <;> rfl
  report := takeReport_untouched
  trigger _ := by constructor <;> rfl
  group _ _ := by constructor <;> rfl
  request := takeEdgeRequest_untouched
  output _ _ _ := by constructor <;> rfl
  field _ := by constructor <;> rfl
  desired := writeDesired_untouched

/-- The end of a command leaves untouched every block that hand-offs do not reach. -/
theorem finish_untouched (s : State) : Untouched s s.finish := untouched_carried.finish s

theorem someTasks_untouched (s : State) : Untouched s s.someTasks := untouched_carried.someTasks s

theorem someEchoes_quiet {s : State} (h : s.Quiet) : s.someEchoes = s := by
  unfold State.someEchoes; simp [h.2]

theorem someTasks_quiet {s : State} (h : s.Quiet) : s.someTasks = s := by
  unfold State.someTasks State.draw
  simp [h.1, runTasks, someEchoes_quiet h]

/-- A command that leaves no hand-off waiting ends in its own state. -/
theorem finish_quiet {s : State} (h : s.Quiet) : s.finish = s := by
  unfold State.finish
  rw [h.1]
  simp [runTasks, runEchoes, Config.echoFuel, h.2]

/-- Every command's answer settles to the state that its own effect gives. -/
theorem answer_settles (s : State) : SettlesTo s.answer s :=
  ⟨s.finish, rfl, finish_untouched s, finish_quiet⟩

/-- The same with the hand-offs named. -/
theorem answer_settlesBy (s : State) : SettlesBy s.answer s := ⟨rfl, answer_settles s⟩

end Sys2Proof.Machine
end

