-- ==== Sys2Proof/Laws/Commits.lean ====
section
/-! SUPPORT. What the close of a check slot does: the path of a committed frame to the blocks. -/

namespace Sys2Proof.Machine

theorem participates_cases {life : Lifecycle} (h : life.participates = true) : life = .joining ∨ life = .active := by
  cases life <;> simp [Lifecycle.participates] at h ⊢

/-- A well-formed frame of another number reaches the blocks of a participating station. -/
theorem commitFrame_participates {s : State} {f : Frame} (awake : s.loader.held = false)
    (part : s.lifecycle.participates = true) (notOwn : s.commit.flownAs? f = none)
    (ok : s.received? f = some (.ok f))
    (other : frameSender f ≠ s.number) :
    s.commitFrame f =
      (State.deliver { s with commit := s.commit.afterPeer } f false).checkIsolation s.roster := by
  rcases participates_cases part with life | life <;>
    simp [State.commitFrame, awake, life, Lifecycle.onMedium, notOwn, State.peerCommitted, ok,
      State.frameEnds, State.endPacing, State.noteActivity, State.vetoesCleared, Lifecycle.participates,
      CommitUnit.afterPeer, State.number] <;> simp_all [State.number]

/-- A frame that a station with a complete image accepts reaches its live blocks. -/
theorem commitFrame_live {s : State} {f : Frame} (h : LivePeerFrame s f) :
    s.commitFrame f =
      (State.deliverLive { s with commit := s.commit.afterPeer } f false).checkIsolation s.roster := by
  rw [commitFrame_participates h.awake h.participates h.notOwn h.wellFormed h.other]
  rcases participates_cases h.participates with life | life
  · cases f <;> simp [State.deliver, life, h.complete]
  · simp [State.deliver, life]

/-- Where the heard peers have not become fewer, or still outnumber the strays, no station detaches (R112). -/
theorem checkIsolation_stays {s : State} {before : Roster} (h : s.isolatedSince before = false) :
    s.checkIsolation before = s := by
  simp [State.checkIsolation, h]

end Sys2Proof.Machine
end

