-- ==== Sys2Proof/Laws/GateChains.lean ====
section
/-! SUPPORT. The chain of gates from a gate to G0, as the checks of a block walk it and as iterated parents
(R122, R180). -/

namespace Sys2Proof.Machine

@[simp] theorem parentOf_zero (c : StationSetup) : parentOf c 0 = 0 := rfl

/-- G0 is the end of every chain. -/
theorem parentOf_iterate_zero (c : StationSetup) (k : Nat) : (parentOf c)^[k] 0 = 0 := by
  induction k with
  | zero => rfl
  | succ k ih => rw [Function.iterate_succ_apply, parentOf_zero, ih]

/-- A chain that has reached G0 stays there. -/
theorem parentOf_iterate_mono {c : StationSetup} {g i j : Nat} (le : i ≤ j) (h : (parentOf c)^[i] g = 0) :
    (parentOf c)^[j] g = 0 := by
  obtain ⟨d, rfl⟩ := Nat.exists_eq_add_of_le' le
  rw [Function.iterate_add_apply, h, parentOf_iterate_zero]

/-- R122, R180, code 9: the chain of a gate holds at most four gates, G0 counted. -/
theorem chainOk_iff (c : StationSetup) (g : Nat) : chainOk c 4 g = true ↔ (parentOf c)^[3] g = 0 := by
  simp only [chainOk, Function.iterate_succ_apply, Function.iterate_zero, id, Bool.or_eq_true, decide_eq_true_eq,
    Bool.false_eq_true, or_false, parentOf]
  repeat' split
  all_goals simp_all

/-- The gates met from a gate are its iterated parents up to G0. -/
theorem mem_gateChain {c : StationSetup} {n : Nat} : ∀ {fuel g : Nat},
    n ∈ gateChain c fuel g ↔ n ≠ 0 ∧ ∃ k, k < fuel ∧ (parentOf c)^[k] g = n
  | 0, g => by simp [gateChain]
  | fuel + 1, g => by
    unfold gateChain
    split
    case isTrue h =>
      subst h
      simp only [List.not_mem_nil, parentOf_iterate_zero, false_iff]
      rintro ⟨ne, -, -, eq⟩
      exact ne eq.symm
    case isFalse h =>
      have step : (c.gate g).parent = parentOf c g := by simp [parentOf, h]
      rw [List.mem_cons, mem_gateChain, step]
      constructor
      · rintro (rfl | ⟨ne, k, lt, eq⟩)
        · exact ⟨h, 0, by omega, rfl⟩
        · exact ⟨ne, k + 1, by omega, eq⟩
      · rintro ⟨ne, k, lt, eq⟩
        match k, lt, eq with
        | 0, _, eq => exact .inl eq.symm
        | k + 1, lt, eq => exact .inr ⟨ne, k, by omega, eq⟩

/-- Among the eight gates every gate of a chain is met within eight steps, on a chain that forms a cycle too. -/
theorem iterate_within_eight {c : StationSetup} (parents : ∀ n, n ≤ 8 → parentOf c n ≤ 8) {g : Nat} (hg : g ≤ 8) :
    ∀ k, (parentOf c)^[k] g ≠ 0 → ∃ j, j < 8 ∧ (parentOf c)^[j] g = (parentOf c)^[k] g := by
  intro k
  induction k using Nat.strong_induction_on with
  | _ k ih =>
    intro ne
    by_cases short : k < 8
    · exact ⟨k, short, rfl⟩
    have bounded : ∀ j, (parentOf c)^[j] g ≤ 8 := fun j => by
      induction j with
      | zero => exact hg
      | succ j hj => rw [Function.iterate_succ_apply']; exact parents _ hj
    have alive : ∀ j, j ≤ k → (parentOf c)^[j] g ≠ 0 := fun j le h => ne (parentOf_iterate_mono le h)
    obtain ⟨i, hi, j, hj, differ, same⟩ := Finset.exists_ne_map_eq_of_card_lt_of_maps_to
      (s := Finset.range 9) (t := Finset.Icc 1 8) (f := fun j => (parentOf c)^[j] g) (by simp) fun j hj => by
        have := Finset.mem_range.mp hj
        exact Finset.mem_Icc.mpr ⟨Nat.one_le_iff_ne_zero.mpr (alive j (by omega)), bounded j⟩
    have smaller : ∃ k', k' < k ∧ (parentOf c)^[k'] g = (parentOf c)^[k] g := by
      have li := Finset.mem_range.mp hi
      have lj := Finset.mem_range.mp hj
      have shift : ∀ a b, a < b → b ≤ k → (parentOf c)^[a] g = (parentOf c)^[b] g →
          (parentOf c)^[k - b + a] g = (parentOf c)^[k] g := fun a b _ le eq => by
        rw [Function.iterate_add_apply, eq, ← Function.iterate_add_apply, Nat.sub_add_cancel le]
      rcases Nat.lt_or_gt_of_ne differ with lt | lt
      · exact ⟨_, by omega, shift i j lt (by omega) same⟩
      · exact ⟨_, by omega, shift j i lt (by omega) same.symm⟩
    obtain ⟨k', lt, eq⟩ := smaller
    obtain ⟨j', lt', eq'⟩ := ih k' lt (eq ▸ ne)
    exact ⟨j', lt', eq'.trans eq⟩

/-- R122: what the search for cycles and gate references reads of a chain. -/
theorem mem_chainSources {c : StationSetup} (parents : ∀ n, n ≤ 8 → parentOf c n ≤ 8) {g : Nat} (hg : g ≤ 8)
    (source : Source) : source ∈ chainSources c g ↔ chainReads c g source := by
  simp only [chainSources, List.mem_filterMap, mem_gateChain, Option.map_eq_some_iff, chainReads]
  constructor
  · rintro ⟨n, ⟨ne, k, -, rfl⟩, l, enable, eq⟩
    exact ⟨k, l, ne, enable, eq⟩
  · rintro ⟨k, l, ne, enable, eq⟩
    obtain ⟨j, lt, same⟩ := iterate_within_eight parents hg k ne
    exact ⟨_, ⟨ne, j, lt, same⟩, l, enable, eq⟩

end Sys2Proof.Machine
end

