-- ==== Sys2Proof/Laws/Rosters.lean ====
section
/-! SUPPORT. The roster's operations on one entry, its hand-offs and its heard peers (R79 to R93, R112). -/

namespace Sys2Proof.Machine

theorem Roster.length_update (r : Roster) (x : Nat) (f : RosterEntry → RosterEntry) :
    (r.update x f).length = r.length := by
  unfold Roster.update
  split
  · rfl
  · exact List.length_modify ..

/-- A roster entry after the change of one entry. -/
theorem Roster.entry_update (r : Roster) (x y : Nat) (f : RosterEntry → RosterEntry) :
    Roster.entry (r.update x f) y = if y = x ∧ 1 ≤ x ∧ x ≤ r.length then f (r.entry x) else r.entry y := by
  unfold Roster.update Roster.entry
  rcases Nat.eq_zero_or_pos x with hx | hx
  · subst hx; simp
  · rcases Nat.eq_zero_or_pos y with hy | hy
    · subst hy; simp [hx.ne']
      omega
    · simp only [if_neg hx.ne', if_neg hy.ne', List.getD, List.getElem?_modify]
      by_cases h : y = x
      · subst h
        by_cases hl : y ≤ r.length
        · have : y - 1 < r.length := by omega
          simp [hl, this]
          intro e; omega
        · have : r.length ≤ y - 1 := by omega
          simp [hl, this]
      · have : ¬ x - 1 = y - 1 := by omega
        simp [h, this]

/-- An entry that is not ABSENT stands in the roster. -/
theorem Roster.stands {r : Roster} {x : Nat} (h : r.stateOf x ≠ .absent) : 1 ≤ x ∧ x ≤ r.length := by
  unfold Roster.stateOf Roster.entry at h
  split at h
  · exact absurd rfl h
  · refine ⟨Nat.pos_of_ne_zero (by assumption), Nat.le_of_not_lt fun hl => h ?_⟩
    rw [List.getD, List.getElem?_eq_none (Nat.le_sub_one_of_lt hl)]
    rfl

/-- Two changes that agree on an entry change the roster alike. -/
theorem Roster.update_congr {r : Roster} {x : Station} {f g : RosterEntry → RosterEntry}
    (h : f (r.entry x) = g (r.entry x)) : r.update x f = r.update x g := by
  unfold Roster.update
  unfold Roster.entry at h
  split
  · rfl
  · rename_i hx
    rw [if_neg hx] at h
    refine List.ext_getElem? fun i => ?_
    simp only [List.getElem?_modify]
    split
    · rename_i e
      subst e
      cases hi : r[x - 1]? with
      | none => rfl
      | some e => simp only [List.getD, hi, Option.getD_some] at h; simp [h]
    · rfl

/-- A change that keeps every entry's state keeps what the roster says of every station. -/
theorem Roster.stateOf_update {r : Roster} {x : Station} {f : RosterEntry → RosterEntry}
    (hf : ∀ e, (f e).state = e.state) (y : Station) : Roster.stateOf (r.update x f) y = r.stateOf y := by
  unfold Roster.stateOf
  rw [Roster.entry_update]
  split
  · rename_i h; rw [hf, h.1]
  · rfl

/-- R85: what an accepted frame of an ACTIVE peer does to its own entry. -/
theorem breakSilence_active {own x : Station} {r : Roster} (other : x ≠ own) (active : r.stateOf x = .active) :
    breakSilence own x r = r.update x fun e => { e with silence := some 0 } := by
  unfold breakSilence
  rw [if_neg other]
  refine Roster.update_congr ?_
  unfold Roster.stateOf at active
  simp [active]

/-- R90: where no station enters or leaves ACTIVE, no PEER source changes. -/
theorem peerChanges_same {r t : Roster} (h : ∀ y, t.stateOf y = r.stateOf y) : peerChanges r t = [] := by
  simp [peerChanges, h]

/-- R112: an accepted frame of a peer leaves no fewer heard peers. -/
theorem heardPeers_silence (own x : Station) (r : Roster) :
    heardPeers own r ≤ heardPeers own (r.update x fun e => { e with silence := some 0 }) := by
  unfold heardPeers
  refine List.Sublist.length_le (List.monotone_filter_right _ fun y hy => ?_)
  have state := Roster.stateOf_update (r := r) (x := x) (f := fun e => { e with silence := some 0 }) (fun _ => rfl) y
  have silence := Roster.entry_update r x y fun e => { e with silence := some 0 }
  simp only [Bool.and_eq_true] at hy ⊢
  rw [state, silence]
  refine ⟨hy.1, ?_⟩
  split
  · rfl
  · exact hy.2

/-- R41: a frame other than a JOIN or an ENTRY is accepted from an ACTIVE sender only. -/
theorem accepts_active {r : Roster} {f : Frame} (h : accepts r f = true) (join : isJoin f = false)
    (entry : ∀ s p items, f ≠ .entry s p items) : r.stateOf (frameSender f) = .active := by
  unfold accepts at h
  split at h
  · assumption
  · simp [isJoin] at join
  · exact absurd rfl (entry _ _ _)
  · simp [isJoin] at join
  · simp [isJoin] at join
  · exact absurd h (by decide)

end Sys2Proof.Machine
end

