-- ==== Sys2Proof/Laws/Service.lean ====
section
/-! SUPPORT. What the service unit's operations leave as they are (R165 to R174). -/

namespace Sys2Proof.Machine

/-- `t` differs from `s` at most in what a service request, its session and its withdrawals reach: the assembler's
slots and desired values, the withdrawal mark of the frame in flight, outputs, faults, capture and the session. -/
structure KeepsLink (s t : State) : Prop where
  pending   : t.pending = s.pending
  lifecycle : t.lifecycle = s.lifecycle
  timeBase  : t.timeBase = s.timeBase
  loader    : t.loader = s.loader
  image     : t.image = s.image
  roster    : t.roster = s.roster
  join      : t.join = s.join
  agenda    : t.agenda = s.agenda
  inputs    : t.field.inputs = s.field.inputs
  lossSet   : t.asm.lossSet = s.asm.lossSet
  requests  : t.asm.requests = s.asm.requests
  rows      : t.asm.rows = s.asm.rows
  vetoes    : t.commit.vetoes = s.commit.vetoes
  failures  : t.commit.failures = s.commit.failures

theorem KeepsLink.refl (s : State) : KeepsLink s s := by constructor <;> rfl

theorem KeepsLink.trans {a b c : State} (h : KeepsLink a b) (k : KeepsLink b c) : KeepsLink a c := by
  constructor <;> first
    | exact k.pending.trans h.pending | exact k.lifecycle.trans h.lifecycle | exact k.timeBase.trans h.timeBase
    | exact k.loader.trans h.loader | exact k.image.trans h.image | exact k.roster.trans h.roster
    | exact k.join.trans h.join | exact k.agenda.trans h.agenda | exact k.inputs.trans h.inputs
    | exact k.lossSet.trans h.lossSet | exact k.requests.trans h.requests | exact k.rows.trans h.rows
    | exact k.vetoes.trans h.vetoes | exact k.failures.trans h.failures

theorem withdrawFlight_keepsLink (s : State) (claims : Origin → Bool) : KeepsLink s (s.withdrawFlight claims) := by
  unfold State.withdrawFlight
  split
  · split <;> constructor <;> rfl
  · exact KeepsLink.refl s

theorem withdrawResponse_keepsLink (s : State) : KeepsLink s s.withdrawResponse := by
  unfold State.withdrawResponse
  refine KeepsLink.trans (b := if s.asm.responseSlot.isSome then s.withdrawFlight Origin.isResponse else s) ?_
    (by constructor <;> rfl)
  split
  · exact withdrawFlight_keepsLink s _
  · exact KeepsLink.refl s

theorem withdrawRelease_keepsLink (s : State) : KeepsLink s s.withdrawRelease := by
  unfold State.withdrawRelease
  refine KeepsLink.trans (b := if s.asm.releaseSlot.isSome then s.withdrawFlight (fun o => o = .release) else s) ?_
    (by constructor <;> rfl)
  split
  · exact withdrawFlight_keepsLink s _
  · exact KeepsLink.refl s

theorem handResponse_keepsLink (s : State) : KeepsLink s s.handResponse := by
  unfold State.handResponse
  split
  · exact KeepsLink.refl s
  · split
    · constructor <;> rfl
    · split
      · exact KeepsLink.refl s
      · constructor <;> rfl
    · exact KeepsLink.refl s

theorem abandonSession_keepsLink (s : State) : KeepsLink s s.abandonSession := by
  unfold State.abandonSession
  dsimp only
  refine KeepsLink.trans ?_ (handResponse_keepsLink _)
  refine KeepsLink.trans ?_ (withdrawRelease_keepsLink _)
  split
  · exact KeepsLink.trans (by constructor <;> rfl) (withdrawResponse_keepsLink _)
  · constructor <;> rfl

theorem abandonSessionOf_keepsLink (s : State) (t : Station) : KeepsLink s (s.abandonSessionOf t) := by
  unfold State.abandonSessionOf
  split
  · split
    · exact abandonSession_keepsLink s
    · exact KeepsLink.refl s
  · exact KeepsLink.refl s

/-- R169: a requester's departure. -/
theorem requesterLeft_keepsLink (s : State) (t : Station) : KeepsLink s (s.requesterLeft t) := by
  unfold State.requesterLeft
  dsimp only
  refine KeepsLink.trans ?_ (handResponse_keepsLink _)
  have erased : KeepsLink s { s.abandonSessionOf t with
      service.busyList := eraseEntry t (s.abandonSessionOf t).service.busyList } :=
    KeepsLink.trans (abandonSessionOf_keepsLink s t) (by constructor <;> rfl)
  split
  · exact KeepsLink.trans erased (withdrawResponse_keepsLink _)
  · exact erased

theorem faultLineMoved_keepsLink (before : Bool) (s : State) : KeepsLink s (s.faultLineMoved before) := by
  unfold State.faultLineMoved
  split <;> constructor <;> rfl

/-- R159: CLEAR-FAULT at the fault unit and the field line unit. -/
theorem clearFaults_keepsLink (s : State) (counts : Bool) : KeepsLink s (s.clearFaults counts) := by
  have record : KeepsLink s (s.clearRecord counts) :=
    KeepsLink.trans (by constructor <;> rfl) (faultLineMoved_keepsLink s.fault.line _)
  refine KeepsLink.trans record ?_
  unfold State.clearFaults State.clearOutputFaults
  dsimp only
  split
  · constructor <;> rfl
  · exact KeepsLink.trans (by constructor <;> rfl) (faultLineMoved_keepsLink _ _)

theorem openSession_keepsLink (s : State) (x : Station) (tag : Byte) (q : Request) :
    KeepsLink s (s.openSession x tag q) := by
  unfold State.openSession
  dsimp only
  refine KeepsLink.trans ?_ (handResponse_keepsLink _)
  split
  · exact KeepsLink.trans (clearFaults_keepsLink s _) (by constructor <;> rfl)
  · constructor <;> rfl
  · split <;> constructor <;> rfl
  all_goals constructor <;> rfl

/-- R166, R167: a request that the service unit takes. -/
theorem takeServiceRequest_keepsLink (s : State) (x : Station) (tag : Byte) (q : Request) :
    KeepsLink s (s.takeServiceRequest x tag q) := by
  unfold State.takeServiceRequest
  split
  · exact openSession_keepsLink s x tag q
  · split
    · exact KeepsLink.trans (abandonSession_keepsLink s) (openSession_keepsLink _ x tag q)
    · exact KeepsLink.trans (by constructor <;> rfl) (handResponse_keepsLink _)

/-- R165, R169: the service unit at an accepted live frame. -/
theorem serve_keepsLink (s : State) (before : Roster) (f : Frame) : KeepsLink s (s.serve before f) := by
  unfold State.serve
  split
  · split
    · exact takeServiceRequest_keepsLink s _ _ _
    · exact KeepsLink.refl s
  · split
    · split
      · exact requesterLeft_keepsLink s _
      · exact KeepsLink.refl s
    · exact KeepsLink.refl s

end Sys2Proof.Machine
end

