-- ==== Sys2Proof/Laws/Live.lean ====
section
/-! SUPPORT. The commit of an accepted frame of a peer at a station whose image is complete, and what such a frame of an
ACTIVE peer does where it has neither items nor roster effects (R54, R85, R87, R112, R165). -/

namespace Sys2Proof.Machine

/-- The frames that carry neither items nor roster effects. -/
def plainFrame : Frame → Bool
  | .busy .. | .image .. | .rollcall .. | .svcReq .. | .svcRsp .. => true
  | .loss .. | .release .. | .join .. | .entry .. | .update .. => false

/-- R54, R57, R60, R72, R85, R111: this station after an accepted frame of an ACTIVE peer, before the service unit has
taken it. -/
def State.afterHeard (s : State) (f : Frame) : State :=
  { s.heard f with roster := s.roster.update (frameSender f) fun e => { e with silence := some 0 } }

/-- A frame without items or roster effects changes the sender's silence and no point. -/
theorem applyLiveFrame_plain {s : State} {f : Frame} (plain : plainFrame f = true)
    (active : s.roster.stateOf (frameSender f) = .active) (other : frameSender f ≠ s.number) :
    State.applyLiveFrame { s with commit := s.commit.afterPeer } f = s.afterHeard f := by
  have other' : ¬ frameSender f = s.loader.number := other
  cases f <;> simp [plainFrame] at plain <;>
    simp [State.applyLiveFrame, State.afterHeard, State.heard, ImageBlock.applyLive, frameEffect, frameItems,
      startWindows, rosterEffect, State.number, other', State.dropLoss] <;>
    rw [breakSilence_active other' active]

theorem pointChanges_same (b : ImageBlock) (f : Frame) : pointChanges b b f = [] := by
  simp [pointChanges, changedPoints, handPoints]

/-- A plain frame hands on at most a period mismatch. -/
theorem liveHandOffs_plain {s t : State} {f : Frame} (plain : plainFrame f = true) (image : t.image = s.image)
    (roster : ∀ y, t.roster.stateOf y = s.roster.stateOf y) : t.liveHandOffs s f = s.mismatchReport f := by
  have records : frameRecords s.image.points f = [] := by cases f <;> simp [plainFrame] at plain <;> rfl
  have pulses : pulseHandOffs f = [] := by cases f <;> simp [plainFrame] at plain <;> rfl
  simp [State.liveHandOffs, image, pointChanges_same, peerChanges_same roster, records, pulses]

/-- The commit of an accepted frame that does not name this station lost is what its live blocks make of it, where no
station is left that hears fewer peers than strays (R112). -/
theorem commitFrame_taken {s e : State} {f : Frame} (h : LivePeerFrame s f) (notLost : namesLost s.number f = false)
    (taken : State.takeLiveFrame { s with commit := s.commit.afterPeer } f = e)
    (stays : e.isolatedSince s.roster = false) : s.commitFrame f = e := by
  have notLost' : namesLost (State.number { s with commit := s.commit.afterPeer }) f = false := notLost
  rw [commitFrame_live h, State.deliverLive, if_neg (by simp [h.accepted]), notLost', if_neg (by simp), taken,
    checkIsolation_stays stays]

/-- The commit of a plain frame of an ACTIVE peer, whole: the service unit takes it after the link blocks, and at most
a period mismatch is handed on. -/
theorem commitFrame_plain {s : State} {f : Frame} (h : LivePeerFrame s f) (plain : plainFrame f = true) :
    s.commitFrame f = ((s.afterHeard f).serve s.roster f).post (s.mismatchReport f) := by
  have active : s.roster.stateOf (frameSender f) = .active :=
    accepts_active h.accepted (by cases f <;> simp [plainFrame] at plain <;> rfl)
      (by intro a b c e; subst e; simp [plainFrame] at plain)
  have notLost : namesLost s.number f = false := by cases f <;> simp [plainFrame] at plain <;> rfl
  have notLost' : namesLost (State.number { s with commit := s.commit.afterPeer }) f = false := notLost
  have respond : ∀ (t : State) r, t.respond r f = t := by intro t r; cases f <;> simp [plainFrame] at plain <;> rfl
  have keeps := serve_keepsLink (s.afterHeard f) s.roster f
  have roster : ((s.afterHeard f).serve s.roster f).roster =
      s.roster.update (frameSender f) fun e => { e with silence := some 0 } := keeps.roster
  rw [commitFrame_live h, State.deliverLive, if_neg (by simp [h.accepted]), notLost', if_neg (by simp),
    State.takeLiveFrame, applyLiveFrame_plain plain active h.other]
  dsimp only
  have handOffs : ((s.afterHeard f).serve s.roster f).liveHandOffs { s with commit := s.commit.afterPeer } f =
      s.mismatchReport f :=
    liveHandOffs_plain (s := { s with commit := s.commit.afterPeer }) plain keeps.image fun y => by
      rw [roster]
      exact Roster.stateOf_update (f := fun e => { e with silence := some 0 }) (fun _ => rfl) y
  rw [respond, handOffs]
  refine checkIsolation_stays ?_
  have number : ((s.afterHeard f).serve s.roster f).number = s.number := congrArg Loader.number keeps.loader
  have hears := heardPeers_silence s.number (frameSender f) s.roster
  unfold State.isolatedSince
  rw [show (((s.afterHeard f).serve s.roster f).post (s.mismatchReport f)).number = s.number from number,
    show (((s.afterHeard f).serve s.roster f).post (s.mismatchReport f)).roster = _ from roster]
  simp [Nat.not_lt.mpr hears]

end Sys2Proof.Machine
end

