-- ==== Sys2Proof/Laws/MarkerCycles.lean ====
section
/-! SUPPORT. The search for a cycle of markers is complete: a configuration that passes it has no marker that depends on
itself (R122, R180). -/

namespace Sys2Proof.Machine

/-- One round of `reach`. -/
theorem mem_round (reads : List (List Nat)) (found : List Nat) (k : Nat) :
    k ∈ ((List.range 32).filter fun k => found.contains k || found.any fun m => (reads.getD m []).contains k) ↔
      k < 32 ∧ (k ∈ found ∨ ∃ m ∈ found, k ∈ reads.getD m []) := by
  simp only [List.mem_filter, List.mem_range, Bool.or_eq_true, List.contains_iff_mem, List.any_eq_true]

/-- A set of markers that holds everything its members depend on. -/
def ClosedUnder (reads : List (List Nat)) (found : List Nat) : Prop :=
  ∀ m ∈ found, ∀ k, k < 32 → k ∈ reads.getD m [] → k ∈ found

/-- What is found stays found. -/
theorem mem_reach (reads : List (List Nat)) : ∀ (fuel : Nat) (found : List Nat) (k : Nat), k < 32 → k ∈ found →
    k ∈ reach reads fuel found
  | 0, _, _, _, h => h
  | fuel + 1, _, k, lt, h => mem_reach reads fuel _ k lt ((mem_round ..).mpr ⟨lt, .inl h⟩)

/-- A closed set stays closed. -/
theorem closed_reach (reads : List (List Nat)) : ∀ (fuel : Nat) (found : List Nat), ClosedUnder reads found →
    ClosedUnder reads (reach reads fuel found)
  | 0, _, h => h
  | fuel + 1, found, h => by
    refine closed_reach reads fuel _ fun m hm k lt hk => ?_
    obtain ⟨_, hm | ⟨n, hn, hmn⟩⟩ := (mem_round ..).mp hm
    · exact (mem_round ..).mpr ⟨lt, .inr ⟨m, hm, hk⟩⟩
    · have : m ∈ found := h n hn m ((mem_round ..).mp hm).1 hmn
      exact (mem_round ..).mpr ⟨lt, .inr ⟨m, this, hk⟩⟩

/-- Each round finds a marker or closes the set, so 32 rounds close it. -/
theorem reach_closed (reads : List (List Nat)) : ∀ (fuel : Nat) (found : List Nat), found.Nodup →
    (∀ k ∈ found, k < 32) → 32 ≤ fuel + found.length → ClosedUnder reads (reach reads fuel found)
  | 0, found, nodup, lt, long => by
    intro _ _ k hk _
    have sub : found ⊆ List.range 32 := fun x hx => List.mem_range.mpr (lt x hx)
    have perm : found.Perm (List.range 32) := (nodup.subperm sub).perm_of_length_le (by simpa using long)
    exact perm.mem_iff.mpr (List.mem_range.mpr hk)
  | fuel + 1, found, nodup, lt, long => by
    let next := (List.range 32).filter fun k => found.contains k || found.any fun m => (reads.getD m []).contains k
    have nodup' : next.Nodup := List.nodup_range.filter _
    have sub : found ⊆ next := fun x hx => (mem_round ..).mpr ⟨lt x hx, .inl hx⟩
    by_cases more : found.length < next.length
    · exact reach_closed reads fuel next nodup' (fun k hk => ((mem_round ..).mp hk).1) (by omega)
    · have perm : found.Perm next := (nodup.subperm sub).perm_of_length_le (by omega)
      refine closed_reach reads fuel next fun m hm k hk hr => ?_
      exact (mem_round ..).mpr ⟨hk, .inr ⟨m, perm.mem_iff.mpr hm, hr⟩⟩

/-- R122, R180, code 8: where no cycle is found, no marker depends on itself. -/
theorem markerCycle_none {c : StationSetup} (none : markerCycle? c = none) {depends : Nat → Nat → Prop}
    (reads : ∀ a b, depends a b → a < 32 ∧ b < 32 ∧ b ∈ markerReads c a) (m : Nat) :
    ¬ Relation.TransGen depends m m := by
  intro cycle
  let table := (List.range 32).map (markerReads c)
  have row : ∀ a, a < 32 → table.getD a [] = markerReads c a := fun a lt => by
    simp [table, List.getElem?_range lt]
  have first : m < 32 := by
    obtain ⟨b, step, -⟩ := Relation.TransGen.head'_iff.mp cycle
    exact (reads m b step).1
  let start := (List.range 32).filter fun k =>
    (table.getD m []).contains k || (table.getD m []).any fun n => (table.getD n []).contains k
  have done : ClosedUnder table (reach table 31 start) := by
    by_cases some : start = []
    · rw [some]; exact closed_reach _ _ _ (by simp [ClosedUnder])
    · exact reach_closed table 31 start (List.nodup_range.filter _) (fun k hk => ((mem_round ..).mp hk).1)
        (by have := List.length_pos_iff.mpr some; omega)
  have all : ∀ b, Relation.TransGen depends m b → b ∈ reach table 31 start := fun b path => by
    induction path with
    | single step =>
      obtain ⟨_, lt, hb⟩ := reads _ _ step
      exact mem_reach table 31 start _ lt ((mem_round ..).mpr ⟨lt, .inl (by rw [row m first]; exact hb)⟩)
    | tail _ step ih =>
      obtain ⟨la, lt, hb⟩ := reads _ _ step
      exact done _ ih _ lt (by rw [row _ la]; exact hb)
  have found := List.find?_eq_none.mp none m (List.mem_range.mpr first)
  exact found (List.contains_iff_mem.mpr (all m cycle))

end Sys2Proof.Machine
end

