-- ==== Sys2Proof/Laws/PerInstr.lean ====
section
/-! SUPPORT. Facts of every command, one lemma a constructor: a command that delivers a frame is well-formed exactly
when no receiver vetoes that frame (R40). -/

namespace Sys2Proof.Laws.CarriedFrame

/-- A command that delivers a frame is well-formed exactly when the frame is. -/
def Statement (c : Instr) : Prop :=
  ∀ f, c.frame? = some f → c.wellFormed = Machine.frameOk f

/-- The frame a command delivers decides whether the command is well-formed, whatever the command. -/
theorem of_frame (c : Instr) : Statement c := fun f h => by simp only [Instr.wellFormed, h]

theorem powerOnReset : Statement .powerOnReset := of_frame _
theorem resetLineAssertion : Statement .resetLineAssertion := of_frame _
theorem resetRelease (straps : BitVec 5) : Statement (.resetRelease straps) := of_frame _
theorem configurationRead (answer : Option (List Byte)) : Statement (.configurationRead answer) := of_frame _
theorem idleReached : Statement .idleReached := of_frame _
theorem frameStart : Statement .frameStart := of_frame _
theorem arbitrationLost : Statement .arbitrationLost := of_frame _
theorem abort : Statement .abort := of_frame _
theorem frameIncomplete : Statement .frameIncomplete := of_frame _
theorem veto (cells : List Waveform) : Statement (.veto cells) := of_frame _
theorem loss (sender target : Station) : Statement (.loss sender target) := of_frame _
theorem release (sender target : Station) : Statement (.release sender target) := of_frame _
theorem join (sender : Station) (respondent : Station) (period : Nat) :
    Statement (.join sender respondent period) := of_frame _
theorem busy (sender target : Station) : Statement (.busy sender target) := of_frame _
theorem image (sender target : Station) (part : Nat) (body : PartBody) :
    Statement (.image sender target part body) := of_frame _
theorem entry (sender : Station) (period : Nat) (items : List Item) :
    Statement (.entry sender period items) := of_frame _
theorem update (sender : Station) (items : List Item) : Statement (.update sender items) := of_frame _
theorem rollcall (sender : Station) (period : Nat) : Statement (.rollcall sender period) := of_frame _
theorem svcRsp (sender target : Station) (tag : Byte) (status : Status) (part parts : Nat) (payload : List Byte) :
    Statement (.svcRsp sender target tag status part parts payload) := of_frame _
theorem readPoint (sender target : Station) (tag : Byte) (point : Byte) :
    Statement (.readPoint sender target tag point) := of_frame _
theorem readRoster (sender target : Station) (tag : Byte) : Statement (.readRoster sender target tag) := of_frame _
theorem readLocal (sender target : Station) (tag : Byte) : Statement (.readLocal sender target tag) := of_frame _
theorem readFault (sender target : Station) (tag : Byte) : Statement (.readFault sender target tag) := of_frame _
theorem clearFault (sender target : Station) (tag : Byte) (counts : Bool) :
    Statement (.clearFault sender target tag counts) := of_frame _
theorem readCapture (sender target : Station) (tag : Byte) (first : Word16) (count : Nat) :
    Statement (.readCapture sender target tag first count) := of_frame _
theorem armCapture (sender target : Station) (tag : Byte) : Statement (.armCapture sender target tag) := of_frame _
theorem releaseStation (sender target : Station) (tag : Byte) (station : Station) :
    Statement (.releaseStation sender target tag station) := of_frame _
theorem restart (sender target : Station) (tag : Byte) : Statement (.restart sender target tag) := of_frame _
theorem listenPeriodExpiry : Statement .listenPeriodExpiry := of_frame _
theorem answerTimerExpiry : Statement .answerTimerExpiry := of_frame _
theorem partGapExpiry : Statement .partGapExpiry := of_frame _
theorem rejoinHoldoffExpiry : Statement .rejoinHoldoffExpiry := of_frame _
theorem straySetExpiry (station : Station) : Statement (.straySetExpiry station) := of_frame _
theorem silenceLimit (station : Station) : Statement (.silenceLimit station) := of_frame _
theorem entryDeadline (station : Station) : Statement (.entryDeadline station) := of_frame _
theorem rollcallDue : Statement .rollcallDue := of_frame _
theorem pacingGap : Statement .pacingGap := of_frame _
theorem pulseWindowExpiry (point : Point) : Statement (.pulseWindowExpiry point) := of_frame _
theorem unitExpiry (timer : Fin 16) : Statement (.unitExpiry timer) := of_frame _
theorem inputLineChange (input : Fin 16) (level : Bool) : Statement (.inputLineChange input level) := of_frame _
theorem filterRunExpiry (input : Fin 16) : Statement (.filterRunExpiry input) := of_frame _
theorem readbackLineChange (output : Fin 12) (level : Bool) :
    Statement (.readbackLineChange output level) := of_frame _
theorem settleTimerExpiry (output : Fin 12) : Statement (.settleTimerExpiry output) := of_frame _
theorem mismatchTimerExpiry (output : Fin 12) : Statement (.mismatchTimerExpiry output) := of_frame _
theorem activity (a : Activity) : Statement (.activity a) := of_frame _

end Sys2Proof.Laws.CarriedFrame
end

