-- ==== Sys2Proof/Laws/Reception.lean ====
section
/-! SUPPORT. Timers against their limits, and the frame in reception: what a verdict of well-formed says, when a command
brings a whole frame, and what a sender makes of its own cells (R40, R46 to R52). -/

namespace Sys2Proof.Machine

/-! ### Timers against their limits -/

@[simp] theorem reached_none (limit : Nat) : reached none limit = false := rfl

@[simp] theorem reached_some (t limit : Nat) : reached (some t) limit = decide (limit ≤ t) := rfl

theorem reached_iff {timer : Option Nat} {limit : Nat} :
    reached timer limit = true ↔ ∃ t, timer = some t ∧ limit ≤ t := by
  cases timer <;> simp

/-- A timer that has just been started has reached no limit but 0. -/
theorem reached_restarted {limit : Nat} (h : 0 < limit) : reached (some 0) limit = false := by
  simp; omega

/-! ### The verdict on received cells -/

/-- Cells without a broken one are the bits they carry. -/
theorem cellBits_bits (bits : List Bool) : cellBits (bits.map .bit) = some bits := by
  induction bits with
  | nil => rfl
  | cons b bits ih => simp [cellBits, ih]

theorem leadingBits_bits (bits : List Bool) : leadingBits (bits.map .bit) = bits := by
  induction bits with
  | nil => rfl
  | cons b bits ih => simp [leadingBits, ih]

/-- R45: cells with a broken one are no bits. -/
theorem cellBits_broken {cells : List Cell} (h : Cell.broken ∈ cells) : cellBits cells = none := by
  induction cells with
  | nil => simp at h
  | cons c cells ih =>
    cases c with
    | bit b => simp_all [cellBits]
    | broken => rfl

/-- R40, R52: cells are a well-formed frame exactly where none is broken and their bits decode to it. -/
theorem judgeCells_ok {cells : List Cell} {f : Frame} :
    judgeCells cells = .ok f ↔ ∃ bits, cellBits cells = some bits ∧ decodeFrame bits = .ok f := by
  unfold judgeCells
  cases cellBits cells with
  | none => simp
  | some bits => cases h : decodeFrame bits <;> simp [h]

/-- R45: a broken cell makes the frame malformed. -/
theorem judgeCells_broken {cells : List Cell} (h : Cell.broken ∈ cells) (f : Frame) : judgeCells cells ≠ .ok f := by
  intro e
  obtain ⟨bits, eq, -⟩ := judgeCells_ok.mp e
  simp [cellBits_broken h] at eq

/-! ### The frame that a command brings -/

/-- A whole frame with its fields in range is received as it was sent. -/
theorem received_whole {s : State} {f : Frame} (start : s.recordedCells? = some []) (ok : frameOk f = true) :
    s.received? f = some (.ok f) := by
  simp only [frameOk, Option.isNone_iff_eq_none] at ok
  simp [State.received?, start, ok]

/-- R47, R48: the cells recorded of a frame: a record is had where one has begun, and where none has, of a frame whose
start was seen and which has not been found stopped. -/
theorem recordedCells_spec (s : State) :
    s.recordedCells? =
      if s.commit.reception ≠ none ∨ s.commit.stopped = false ∧ (10 ≤ s.commit.idle ∨ s.lifecycle.participates = true)
      then some (s.commit.reception.getD []) else none := by
  unfold State.recordedCells?
  have idle : s.commit.idleReached = decide (10 ≤ s.commit.idle) := rfl
  cases s.commit.reception <;> simp [idle, Bool.and_eq_true, decide_eq_true_eq]

/-- A participating station has a record of every frame that it has not found stopped (R48, R52). -/
theorem recordedCells_participates {s : State} (h : s.lifecycle.participates = true)
    (goes : s.commit.reception ≠ none ∨ s.commit.stopped = false) :
    s.recordedCells? = some (s.commit.reception.getD []) := by
  rw [recordedCells_spec, if_pos (goes.imp_right fun g => ⟨g, .inr h⟩)]

/-- R48: a frame found stopped has no record, whatever the lifecycle. -/
theorem received_stopped {s : State} (none : s.commit.reception = none) (stopped : s.commit.stopped = true)
    (f : Frame) : s.received? f = .none := by
  simp [State.received?, State.recordedCells?, none, stopped]

/-- R48, R52: the record on which a participating station judges a frame in its slot. -/
theorem slotRecord_participates {s : State} (h : s.lifecycle.participates = true) (cells : List Waveform) :
    s.slotRecord? cells =
      if s.commit.reception = none ∧ s.commit.stopped = true then none
      else takeCells s.cellTime (s.commit.reception.getD []) cells := by
  rw [State.slotRecord?, recordedCells_spec]
  cases s.commit.reception <;> cases s.commit.stopped <;> simp [h]

/-- R46, R55: a frame joined midway has no record. -/
theorem received_midway {s : State} (listens : s.lifecycle.participates = false) (none : s.commit.reception = none)
    (idle : s.commit.idleReached = false) (f : Frame) : s.received? f = .none := by
  simp [State.received?, State.recordedCells?, none, idle, listens]

/-! ### The sender's own cells -/

/-- R49, R51: a sender goes on exactly where the cell carries its own bit. -/
theorem senderStanding_continues {n : Nat} {sent : Bool} {seen : Cell} :
    senderStanding n sent seen = .continues ↔ seen = .bit sent := by
  unfold senderStanding
  split <;> simp_all
  split <;> simp

/-- R49, R50: arbitration is lost only in the key, where a 1 was sent and a 0 seen. -/
theorem senderStanding_lost {n : Nat} {sent : Bool} {seen : Cell} :
    senderStanding n sent seen = .lost ↔ n < 9 ∧ sent = true ∧ seen = .bit false := by
  unfold senderStanding
  split
  · rename_i h; subst h; cases sent <;> simp
  · split <;> simp_all

end Sys2Proof.Machine
end

