-- ==== Sys2Proof/Laws/Records.lean ====
section
/-! SUPPORT. The first-fault record and the counts under hand-offs (R157). -/

namespace Sys2Proof.Machine

/-- A present first-fault record stays as it is. -/
def KeepsRecord (s t : State) : Prop := ∀ r, s.fault.record = some r → t.fault.record = some r

theorem faultLineMoved_fault (before : Bool) (s : State) : (s.faultLineMoved before).fault = s.fault := by
  unfold State.faultLineMoved; split <;> rfl

/-- R157: the record and the counts after a report. -/
theorem takeReport_fault (s : State) (k : FaultKind) (subject : Option Subject) (life : Lifecycle) :
    (s.takeReport k subject life).fault = s.fault.takeReport k subject s.timeBase life := by
  unfold State.takeReport
  rw [faultLineMoved_fault]
  split <;> rfl

theorem takeReport_keepsRecord (s : State) (k : FaultKind) (subject : Option Subject) (life : Lifecycle) :
    KeepsRecord s (s.takeReport k subject life) := by
  intro r h
  rw [takeReport_fault]
  simp [FaultUnit.takeReport, h]

theorem keepsRecord_carried : Carried KeepsRecord where
  refl _ _ h := h
  trans h k r e := k r (h r e)
  free _ _ _ h := h
  agenda _ _ _ h := h
  echoes _ _ _ h := h
  eval _ _ _ h := h
  timers _ _ _ h := h
  report := takeReport_keepsRecord
  trigger _ _ h := h
  group _ _ _ h := h
  request s r := by
    unfold State.takeEdgeRequest
    split
    · exact fun _ h => h
    · exact fun _ h => h
    · split
      · exact fun _ h => h
      · exact takeReport_keepsRecord s _ _ _
    all_goals exact fun _ h => h
  output _ _ _ _ h := h
  field _ _ h := h
  desired _ _ _ _ h := h

theorem finish_keepsRecord (s : State) : KeepsRecord s s.finish := keepsRecord_carried.finish s

theorem report_fault (s : State) (k : FaultKind) (subject : Option Subject) :
    (s.report k subject).fault = s.fault.takeReport k subject s.timeBase s.lifecycle := takeReport_fault s k subject _

end Sys2Proof.Machine
end

