-- ==== Sys2Proof/Laws/State.lean ====
section
/-! SUPPORT. The fields of State after each update that the commands share: one lemma for each field and update, true
by the update's definition. -/

namespace Sys2Proof.Machine

variable (s : State)

/-! ### Posting hand-offs: `State.post` -/

@[simp] theorem State.post_pending (hs : List HandOff) : (s.post hs).pending = s.pending := rfl
@[simp] theorem State.post_lifecycle (hs : List HandOff) : (s.post hs).lifecycle = s.lifecycle := rfl
@[simp] theorem State.post_timeBase (hs : List HandOff) : (s.post hs).timeBase = s.timeBase := rfl
@[simp] theorem State.post_loader (hs : List HandOff) : (s.post hs).loader = s.loader := rfl
@[simp] theorem State.post_commit (hs : List HandOff) : (s.post hs).commit = s.commit := rfl
@[simp] theorem State.post_image (hs : List HandOff) : (s.post hs).image = s.image := rfl
@[simp] theorem State.post_roster (hs : List HandOff) : (s.post hs).roster = s.roster := rfl
@[simp] theorem State.post_join (hs : List HandOff) : (s.post hs).join = s.join := rfl
@[simp] theorem State.post_asm (hs : List HandOff) : (s.post hs).asm = s.asm := rfl
@[simp] theorem State.post_eval (hs : List HandOff) : (s.post hs).eval = s.eval := rfl
@[simp] theorem State.post_timers (hs : List HandOff) : (s.post hs).timers = s.timers := rfl
@[simp] theorem State.post_field (hs : List HandOff) : (s.post hs).field = s.field := rfl
@[simp] theorem State.post_fault (hs : List HandOff) : (s.post hs).fault = s.fault := rfl
@[simp] theorem State.post_capture (hs : List HandOff) : (s.post hs).capture = s.capture := rfl
@[simp] theorem State.post_service (hs : List HandOff) : (s.post hs).service = s.service := rfl
@[simp] theorem State.post_agenda (hs : List HandOff) : (s.post hs).agenda = s.agenda ++ hs := rfl
@[simp] theorem State.post_echoes (hs : List HandOff) : (s.post hs).echoes = s.echoes := rfl
@[simp] theorem State.post_freeIndex (hs : List HandOff) : (s.post hs).freeIndex = s.freeIndex := rfl

/-! ### Posting consequent hand-offs: `State.postEcho` -/

@[simp] theorem State.postEcho_pending (hs : List HandOff) : (s.postEcho hs).pending = s.pending := rfl
@[simp] theorem State.postEcho_lifecycle (hs : List HandOff) : (s.postEcho hs).lifecycle = s.lifecycle := rfl
@[simp] theorem State.postEcho_timeBase (hs : List HandOff) : (s.postEcho hs).timeBase = s.timeBase := rfl
@[simp] theorem State.postEcho_loader (hs : List HandOff) : (s.postEcho hs).loader = s.loader := rfl
@[simp] theorem State.postEcho_commit (hs : List HandOff) : (s.postEcho hs).commit = s.commit := rfl
@[simp] theorem State.postEcho_image (hs : List HandOff) : (s.postEcho hs).image = s.image := rfl
@[simp] theorem State.postEcho_roster (hs : List HandOff) : (s.postEcho hs).roster = s.roster := rfl
@[simp] theorem State.postEcho_join (hs : List HandOff) : (s.postEcho hs).join = s.join := rfl
@[simp] theorem State.postEcho_asm (hs : List HandOff) : (s.postEcho hs).asm = s.asm := rfl
@[simp] theorem State.postEcho_eval (hs : List HandOff) : (s.postEcho hs).eval = s.eval := rfl
@[simp] theorem State.postEcho_timers (hs : List HandOff) : (s.postEcho hs).timers = s.timers := rfl
@[simp] theorem State.postEcho_field (hs : List HandOff) : (s.postEcho hs).field = s.field := rfl
@[simp] theorem State.postEcho_fault (hs : List HandOff) : (s.postEcho hs).fault = s.fault := rfl
@[simp] theorem State.postEcho_capture (hs : List HandOff) : (s.postEcho hs).capture = s.capture := rfl
@[simp] theorem State.postEcho_service (hs : List HandOff) : (s.postEcho hs).service = s.service := rfl
@[simp] theorem State.postEcho_agenda (hs : List HandOff) : (s.postEcho hs).agenda = s.agenda := rfl
@[simp] theorem State.postEcho_echoes (hs : List HandOff) : (s.postEcho hs).echoes = s.echoes ++ hs := rfl
@[simp] theorem State.postEcho_freeIndex (hs : List HandOff) : (s.postEcho hs).freeIndex = s.freeIndex := rfl

/-! ### R46, R47: `State.frameEnds` -/

@[simp] theorem State.frameEnds_pending : (s.frameEnds).pending = s.pending := rfl
@[simp] theorem State.frameEnds_lifecycle : (s.frameEnds).lifecycle = s.lifecycle := rfl
@[simp] theorem State.frameEnds_timeBase : (s.frameEnds).timeBase = s.timeBase := rfl
@[simp] theorem State.frameEnds_loader : (s.frameEnds).loader = s.loader := rfl
@[simp] theorem State.frameEnds_commit : (s.frameEnds).commit =
    { s.commit with idle := 0, reception := none, stopped := false } := rfl
@[simp] theorem State.frameEnds_image : (s.frameEnds).image = s.image := rfl
@[simp] theorem State.frameEnds_roster : (s.frameEnds).roster = s.roster := rfl
@[simp] theorem State.frameEnds_join : (s.frameEnds).join = s.join := rfl
@[simp] theorem State.frameEnds_asm : (s.frameEnds).asm = s.asm := rfl
@[simp] theorem State.frameEnds_eval : (s.frameEnds).eval = s.eval := rfl
@[simp] theorem State.frameEnds_timers : (s.frameEnds).timers = s.timers := rfl
@[simp] theorem State.frameEnds_field : (s.frameEnds).field = s.field := rfl
@[simp] theorem State.frameEnds_fault : (s.frameEnds).fault = s.fault := rfl
@[simp] theorem State.frameEnds_capture : (s.frameEnds).capture = s.capture := rfl
@[simp] theorem State.frameEnds_service : (s.frameEnds).service = s.service := rfl
@[simp] theorem State.frameEnds_agenda : (s.frameEnds).agenda = s.agenda := rfl
@[simp] theorem State.frameEnds_echoes : (s.frameEnds).echoes = s.echoes := rfl
@[simp] theorem State.frameEnds_freeIndex : (s.frameEnds).freeIndex = s.freeIndex := rfl

/-! ### R48: `State.frameStops` -/

@[simp] theorem State.frameStops_pending : (s.frameStops).pending = s.pending := rfl
@[simp] theorem State.frameStops_lifecycle : (s.frameStops).lifecycle = s.lifecycle := rfl
@[simp] theorem State.frameStops_timeBase : (s.frameStops).timeBase = s.timeBase := rfl
@[simp] theorem State.frameStops_loader : (s.frameStops).loader = s.loader := rfl
@[simp] theorem State.frameStops_commit : (s.frameStops).commit =
    { s.commit with idle := 0, reception := none, stopped := true } := rfl
@[simp] theorem State.frameStops_image : (s.frameStops).image = s.image := rfl
@[simp] theorem State.frameStops_roster : (s.frameStops).roster = s.roster := rfl
@[simp] theorem State.frameStops_join : (s.frameStops).join = s.join := rfl
@[simp] theorem State.frameStops_asm : (s.frameStops).asm = s.asm := rfl
@[simp] theorem State.frameStops_eval : (s.frameStops).eval = s.eval := rfl
@[simp] theorem State.frameStops_timers : (s.frameStops).timers = s.timers := rfl
@[simp] theorem State.frameStops_field : (s.frameStops).field = s.field := rfl
@[simp] theorem State.frameStops_fault : (s.frameStops).fault = s.fault := rfl
@[simp] theorem State.frameStops_capture : (s.frameStops).capture = s.capture := rfl
@[simp] theorem State.frameStops_service : (s.frameStops).service = s.service := rfl
@[simp] theorem State.frameStops_agenda : (s.frameStops).agenda = s.agenda := rfl
@[simp] theorem State.frameStops_echoes : (s.frameStops).echoes = s.echoes := rfl
@[simp] theorem State.frameStops_freeIndex : (s.frameStops).freeIndex = s.freeIndex := rfl

/-! ### R60: `State.endPacing` -/

@[simp] theorem State.endPacing_pending : (s.endPacing).pending = s.pending := rfl
@[simp] theorem State.endPacing_lifecycle : (s.endPacing).lifecycle = s.lifecycle := rfl
@[simp] theorem State.endPacing_timeBase : (s.endPacing).timeBase = s.timeBase := rfl
@[simp] theorem State.endPacing_loader : (s.endPacing).loader = s.loader := rfl
@[simp] theorem State.endPacing_commit : (s.endPacing).commit = { s.commit with pacing := none } := rfl
@[simp] theorem State.endPacing_image : (s.endPacing).image = s.image := rfl
@[simp] theorem State.endPacing_roster : (s.endPacing).roster = s.roster := rfl
@[simp] theorem State.endPacing_join : (s.endPacing).join = s.join := rfl
@[simp] theorem State.endPacing_asm : (s.endPacing).asm = s.asm := rfl
@[simp] theorem State.endPacing_eval : (s.endPacing).eval = s.eval := rfl
@[simp] theorem State.endPacing_timers : (s.endPacing).timers = s.timers := rfl
@[simp] theorem State.endPacing_field : (s.endPacing).field = s.field := rfl
@[simp] theorem State.endPacing_fault : (s.endPacing).fault = s.fault := rfl
@[simp] theorem State.endPacing_capture : (s.endPacing).capture = s.capture := rfl
@[simp] theorem State.endPacing_service : (s.endPacing).service = s.service := rfl
@[simp] theorem State.endPacing_agenda : (s.endPacing).agenda = s.agenda := rfl
@[simp] theorem State.endPacing_echoes : (s.endPacing).echoes = s.echoes := rfl
@[simp] theorem State.endPacing_freeIndex : (s.endPacing).freeIndex = s.freeIndex := rfl

/-! ### R72: `State.dropLoss` -/

@[simp] theorem State.dropLoss_pending (t : Station) : (s.dropLoss t).pending = s.pending := rfl
@[simp] theorem State.dropLoss_lifecycle (t : Station) : (s.dropLoss t).lifecycle = s.lifecycle := rfl
@[simp] theorem State.dropLoss_timeBase (t : Station) : (s.dropLoss t).timeBase = s.timeBase := rfl
@[simp] theorem State.dropLoss_loader (t : Station) : (s.dropLoss t).loader = s.loader := rfl
@[simp] theorem State.dropLoss_commit (t : Station) : (s.dropLoss t).commit = s.commit := rfl
@[simp] theorem State.dropLoss_image (t : Station) : (s.dropLoss t).image = s.image := rfl
@[simp] theorem State.dropLoss_roster (t : Station) : (s.dropLoss t).roster = s.roster := rfl
@[simp] theorem State.dropLoss_join (t : Station) : (s.dropLoss t).join = s.join := rfl
@[simp] theorem State.dropLoss_asm (t : Station) : (s.dropLoss t).asm =
    { s.asm with lossSet := eraseStation t s.asm.lossSet } := rfl
@[simp] theorem State.dropLoss_eval (t : Station) : (s.dropLoss t).eval = s.eval := rfl
@[simp] theorem State.dropLoss_timers (t : Station) : (s.dropLoss t).timers = s.timers := rfl
@[simp] theorem State.dropLoss_field (t : Station) : (s.dropLoss t).field = s.field := rfl
@[simp] theorem State.dropLoss_fault (t : Station) : (s.dropLoss t).fault = s.fault := rfl
@[simp] theorem State.dropLoss_capture (t : Station) : (s.dropLoss t).capture = s.capture := rfl
@[simp] theorem State.dropLoss_service (t : Station) : (s.dropLoss t).service = s.service := rfl
@[simp] theorem State.dropLoss_agenda (t : Station) : (s.dropLoss t).agenda = s.agenda := rfl
@[simp] theorem State.dropLoss_echoes (t : Station) : (s.dropLoss t).echoes = s.echoes := rfl
@[simp] theorem State.dropLoss_freeIndex (t : Station) : (s.dropLoss t).freeIndex = s.freeIndex := rfl

/-! ### R97, R104: `State.handJoin` -/

@[simp] theorem State.handJoin_pending (r : Station) : (s.handJoin r).pending = s.pending := rfl
@[simp] theorem State.handJoin_lifecycle (r : Station) : (s.handJoin r).lifecycle = s.lifecycle := rfl
@[simp] theorem State.handJoin_timeBase (r : Station) : (s.handJoin r).timeBase = s.timeBase := rfl
@[simp] theorem State.handJoin_loader (r : Station) : (s.handJoin r).loader = s.loader := rfl
@[simp] theorem State.handJoin_commit (r : Station) : (s.handJoin r).commit = s.commit := rfl
@[simp] theorem State.handJoin_image (r : Station) : (s.handJoin r).image = s.image := rfl
@[simp] theorem State.handJoin_roster (r : Station) : (s.handJoin r).roster = s.roster := rfl
@[simp] theorem State.handJoin_join (r : Station) : (s.handJoin r).join = { s.join with choice := r } := rfl
@[simp] theorem State.handJoin_asm (r : Station) : (s.handJoin r).asm = { s.asm with joinSlot := some .join } := rfl
@[simp] theorem State.handJoin_eval (r : Station) : (s.handJoin r).eval = s.eval := rfl
@[simp] theorem State.handJoin_timers (r : Station) : (s.handJoin r).timers = s.timers := rfl
@[simp] theorem State.handJoin_field (r : Station) : (s.handJoin r).field = s.field := rfl
@[simp] theorem State.handJoin_fault (r : Station) : (s.handJoin r).fault = s.fault := rfl
@[simp] theorem State.handJoin_capture (r : Station) : (s.handJoin r).capture = s.capture := rfl
@[simp] theorem State.handJoin_service (r : Station) : (s.handJoin r).service = s.service := rfl
@[simp] theorem State.handJoin_agenda (r : Station) : (s.handJoin r).agenda = s.agenda := rfl
@[simp] theorem State.handJoin_echoes (r : Station) : (s.handJoin r).echoes = s.echoes := rfl
@[simp] theorem State.handJoin_freeIndex (r : Station) : (s.handJoin r).freeIndex = s.freeIndex := rfl

/-! ### R101: `State.takeSnapshot` -/

@[simp] theorem State.takeSnapshot_pending (j : Station) : (s.takeSnapshot j).pending = s.pending := rfl
@[simp] theorem State.takeSnapshot_lifecycle (j : Station) : (s.takeSnapshot j).lifecycle = s.lifecycle := rfl
@[simp] theorem State.takeSnapshot_timeBase (j : Station) : (s.takeSnapshot j).timeBase = s.timeBase := rfl
@[simp] theorem State.takeSnapshot_loader (j : Station) : (s.takeSnapshot j).loader = s.loader := rfl
@[simp] theorem State.takeSnapshot_commit (j : Station) : (s.takeSnapshot j).commit = s.commit := rfl
@[simp] theorem State.takeSnapshot_image (j : Station) : (s.takeSnapshot j).image = s.image := rfl
@[simp] theorem State.takeSnapshot_roster (j : Station) : (s.takeSnapshot j).roster = s.roster := rfl
@[simp] theorem State.takeSnapshot_join (j : Station) : (s.takeSnapshot j).join =
    { s.join with snapshot := some ⟨j, rosterCopy s.roster, s.image.points, 0⟩ } := rfl
@[simp] theorem State.takeSnapshot_asm (j : Station) : (s.takeSnapshot j).asm = { s.asm with partSlot := true } := rfl
@[simp] theorem State.takeSnapshot_eval (j : Station) : (s.takeSnapshot j).eval = s.eval := rfl
@[simp] theorem State.takeSnapshot_timers (j : Station) : (s.takeSnapshot j).timers = s.timers := rfl
@[simp] theorem State.takeSnapshot_field (j : Station) : (s.takeSnapshot j).field = s.field := rfl
@[simp] theorem State.takeSnapshot_fault (j : Station) : (s.takeSnapshot j).fault = s.fault := rfl
@[simp] theorem State.takeSnapshot_capture (j : Station) : (s.takeSnapshot j).capture = s.capture := rfl
@[simp] theorem State.takeSnapshot_service (j : Station) : (s.takeSnapshot j).service = s.service := rfl
@[simp] theorem State.takeSnapshot_agenda (j : Station) : (s.takeSnapshot j).agenda = s.agenda := rfl
@[simp] theorem State.takeSnapshot_echoes (j : Station) : (s.takeSnapshot j).echoes = s.echoes := rfl
@[simp] theorem State.takeSnapshot_freeIndex (j : Station) : (s.takeSnapshot j).freeIndex = s.freeIndex := rfl

/-! ### R66, R70: `State.settleFailed` -/

@[simp] theorem State.settleFailed_pending : (s.settleFailed).pending = s.pending := rfl
@[simp] theorem State.settleFailed_lifecycle : (s.settleFailed).lifecycle = s.lifecycle := rfl
@[simp] theorem State.settleFailed_timeBase : (s.settleFailed).timeBase = s.timeBase := rfl
@[simp] theorem State.settleFailed_loader : (s.settleFailed).loader = s.loader := rfl
@[simp] theorem State.settleFailed_commit : (s.settleFailed).commit = { s.commit with flight := none } := rfl
@[simp] theorem State.settleFailed_image : (s.settleFailed).image = s.image := rfl
@[simp] theorem State.settleFailed_roster : (s.settleFailed).roster = s.roster := rfl
@[simp] theorem State.settleFailed_join : (s.settleFailed).join = s.join := rfl
@[simp] theorem State.settleFailed_asm : (s.settleFailed).asm =
    { s.asm with rows := rowsFailed s.asm.rows, requests := requestsFailed s.asm.requests } := rfl
@[simp] theorem State.settleFailed_eval : (s.settleFailed).eval = s.eval := rfl
@[simp] theorem State.settleFailed_timers : (s.settleFailed).timers = s.timers := rfl
@[simp] theorem State.settleFailed_field : (s.settleFailed).field = s.field := rfl
@[simp] theorem State.settleFailed_fault : (s.settleFailed).fault = s.fault := rfl
@[simp] theorem State.settleFailed_capture : (s.settleFailed).capture = s.capture := rfl
@[simp] theorem State.settleFailed_service : (s.settleFailed).service = s.service := rfl
@[simp] theorem State.settleFailed_agenda : (s.settleFailed).agenda = s.agenda := rfl
@[simp] theorem State.settleFailed_echoes : (s.settleFailed).echoes = s.echoes := rfl
@[simp] theorem State.settleFailed_freeIndex : (s.settleFailed).freeIndex = s.freeIndex := rfl

/-! ### R21: `State.giveUpFounding` -/

@[simp] theorem State.giveUpFounding_pending : (s.giveUpFounding).pending = s.pending := rfl
@[simp] theorem State.giveUpFounding_lifecycle : (s.giveUpFounding).lifecycle = s.lifecycle := rfl
@[simp] theorem State.giveUpFounding_timeBase : (s.giveUpFounding).timeBase = s.timeBase := rfl
@[simp] theorem State.giveUpFounding_loader : (s.giveUpFounding).loader = s.loader := rfl
@[simp] theorem State.giveUpFounding_commit : (s.giveUpFounding).commit = s.commit := rfl
@[simp] theorem State.giveUpFounding_image : (s.giveUpFounding).image = ImageBlock.reset := rfl
@[simp] theorem State.giveUpFounding_roster : (s.giveUpFounding).roster = Roster.initial := rfl
@[simp] theorem State.giveUpFounding_join : (s.giveUpFounding).join = { s.join with spoiled := false } := rfl
@[simp] theorem State.giveUpFounding_asm : (s.giveUpFounding).asm = s.asm := rfl
@[simp] theorem State.giveUpFounding_eval : (s.giveUpFounding).eval = s.eval := rfl
@[simp] theorem State.giveUpFounding_timers : (s.giveUpFounding).timers = s.timers := rfl
@[simp] theorem State.giveUpFounding_field : (s.giveUpFounding).field = s.field := rfl
@[simp] theorem State.giveUpFounding_fault : (s.giveUpFounding).fault = s.fault := rfl
@[simp] theorem State.giveUpFounding_capture : (s.giveUpFounding).capture = s.capture := rfl
@[simp] theorem State.giveUpFounding_service : (s.giveUpFounding).service = s.service := rfl
@[simp] theorem State.giveUpFounding_agenda : (s.giveUpFounding).agenda = s.agenda := rfl
@[simp] theorem State.giveUpFounding_echoes : (s.giveUpFounding).echoes = s.echoes := rfl
@[simp] theorem State.giveUpFounding_freeIndex : (s.giveUpFounding).freeIndex = s.freeIndex := rfl

/-! ### R96: `State.enterListen` -/

@[simp] theorem State.enterListen_pending (n : Nat) : (s.enterListen n).pending = s.pending := rfl
@[simp] theorem State.enterListen_lifecycle (n : Nat) : (s.enterListen n).lifecycle = .listen := rfl
@[simp] theorem State.enterListen_timeBase (n : Nat) : (s.enterListen n).timeBase = s.timeBase := rfl
@[simp] theorem State.enterListen_loader (n : Nat) : (s.enterListen n).loader = s.loader := rfl
@[simp] theorem State.enterListen_commit (n : Nat) : (s.enterListen n).commit = { s.commit with idle := 0 } := rfl
@[simp] theorem State.enterListen_image (n : Nat) : (s.enterListen n).image = ImageBlock.reset := rfl
@[simp] theorem State.enterListen_roster (n : Nat) : (s.enterListen n).roster = Roster.initial := rfl
@[simp] theorem State.enterListen_join (n : Nat) : (s.enterListen n).join =
    { JoinController.reset with attempts := n, listenTimer := some 0 } := rfl
@[simp] theorem State.enterListen_asm (n : Nat) : (s.enterListen n).asm = s.asm := rfl
@[simp] theorem State.enterListen_eval (n : Nat) : (s.enterListen n).eval = s.eval := rfl
@[simp] theorem State.enterListen_timers (n : Nat) : (s.enterListen n).timers = s.timers := rfl
@[simp] theorem State.enterListen_field (n : Nat) : (s.enterListen n).field = s.field := rfl
@[simp] theorem State.enterListen_fault (n : Nat) : (s.enterListen n).fault = s.fault := rfl
@[simp] theorem State.enterListen_capture (n : Nat) : (s.enterListen n).capture = s.capture := rfl
@[simp] theorem State.enterListen_service (n : Nat) : (s.enterListen n).service = s.service := rfl
@[simp] theorem State.enterListen_agenda (n : Nat) : (s.enterListen n).agenda = s.agenda := rfl
@[simp] theorem State.enterListen_echoes (n : Nat) : (s.enterListen n).echoes = s.echoes := rfl
@[simp] theorem State.enterListen_freeIndex (n : Nat) : (s.enterListen n).freeIndex = s.freeIndex := rfl

/-! ### R110: `State.becomeActive` -/

@[simp] theorem State.becomeActive_pending : (s.becomeActive).pending = s.pending := rfl
@[simp] theorem State.becomeActive_lifecycle : (s.becomeActive).lifecycle = .active := rfl
@[simp] theorem State.becomeActive_timeBase : (s.becomeActive).timeBase = s.timeBase := rfl
@[simp] theorem State.becomeActive_loader : (s.becomeActive).loader = s.loader := rfl
@[simp] theorem State.becomeActive_commit : (s.becomeActive).commit = s.commit := rfl
@[simp] theorem State.becomeActive_image : (s.becomeActive).image = s.image := rfl
@[simp] theorem State.becomeActive_roster : (s.becomeActive).roster = s.roster := rfl
@[simp] theorem State.becomeActive_join : (s.becomeActive).join = { s.join with attempts := 0 } := rfl
@[simp] theorem State.becomeActive_asm : (s.becomeActive).asm = s.asm := rfl
@[simp] theorem State.becomeActive_eval : (s.becomeActive).eval = s.eval := rfl
@[simp] theorem State.becomeActive_timers : (s.becomeActive).timers = s.timers := rfl
@[simp] theorem State.becomeActive_field : (s.becomeActive).field = s.field := rfl
@[simp] theorem State.becomeActive_fault : (s.becomeActive).fault = s.fault := rfl
@[simp] theorem State.becomeActive_capture : (s.becomeActive).capture = s.capture := rfl
@[simp] theorem State.becomeActive_service : (s.becomeActive).service = s.service := rfl
@[simp] theorem State.becomeActive_agenda : (s.becomeActive).agenda =
    s.agenda ++ [.lifecycleToEvaluator, .lifecycleToField] := rfl
@[simp] theorem State.becomeActive_echoes : (s.becomeActive).echoes = s.echoes := rfl
@[simp] theorem State.becomeActive_freeIndex : (s.becomeActive).freeIndex = s.freeIndex := rfl

/-! ### R163: `State.captureTrigger` -/

@[simp] theorem State.captureTrigger_pending : (s.captureTrigger).pending = s.pending := rfl
@[simp] theorem State.captureTrigger_lifecycle : (s.captureTrigger).lifecycle = s.lifecycle := rfl
@[simp] theorem State.captureTrigger_timeBase : (s.captureTrigger).timeBase = s.timeBase := rfl
@[simp] theorem State.captureTrigger_loader : (s.captureTrigger).loader = s.loader := rfl
@[simp] theorem State.captureTrigger_commit : (s.captureTrigger).commit = s.commit := rfl
@[simp] theorem State.captureTrigger_image : (s.captureTrigger).image = s.image := rfl
@[simp] theorem State.captureTrigger_roster : (s.captureTrigger).roster = s.roster := rfl
@[simp] theorem State.captureTrigger_join : (s.captureTrigger).join = s.join := rfl
@[simp] theorem State.captureTrigger_asm : (s.captureTrigger).asm = s.asm := rfl
@[simp] theorem State.captureTrigger_eval : (s.captureTrigger).eval = s.eval := rfl
@[simp] theorem State.captureTrigger_timers : (s.captureTrigger).timers = s.timers := rfl
@[simp] theorem State.captureTrigger_field : (s.captureTrigger).field = s.field := rfl
@[simp] theorem State.captureTrigger_fault : (s.captureTrigger).fault = s.fault := rfl
@[simp] theorem State.captureTrigger_capture : (s.captureTrigger).capture =
    s.capture.takeTrigger s.setup.capture.postCount := rfl
@[simp] theorem State.captureTrigger_service : (s.captureTrigger).service = s.service := rfl
@[simp] theorem State.captureTrigger_agenda : (s.captureTrigger).agenda = s.agenda := rfl
@[simp] theorem State.captureTrigger_echoes : (s.captureTrigger).echoes = s.echoes := rfl
@[simp] theorem State.captureTrigger_freeIndex : (s.captureTrigger).freeIndex = s.freeIndex := rfl

/-! ### R161: `State.captureGroup` -/

@[simp] theorem State.captureGroup_pending (bodies : List RecordBody) : (s.captureGroup bodies).pending =
    s.pending := rfl
@[simp] theorem State.captureGroup_lifecycle (bodies : List RecordBody) : (s.captureGroup bodies).lifecycle =
    s.lifecycle := rfl
@[simp] theorem State.captureGroup_timeBase (bodies : List RecordBody) : (s.captureGroup bodies).timeBase =
    s.timeBase := rfl
@[simp] theorem State.captureGroup_loader (bodies : List RecordBody) : (s.captureGroup bodies).loader =
    s.loader := rfl
@[simp] theorem State.captureGroup_commit (bodies : List RecordBody) : (s.captureGroup bodies).commit =
    s.commit := rfl
@[simp] theorem State.captureGroup_image (bodies : List RecordBody) : (s.captureGroup bodies).image = s.image := rfl
@[simp] theorem State.captureGroup_roster (bodies : List RecordBody) : (s.captureGroup bodies).roster =
    s.roster := rfl
@[simp] theorem State.captureGroup_join (bodies : List RecordBody) : (s.captureGroup bodies).join = s.join := rfl
@[simp] theorem State.captureGroup_asm (bodies : List RecordBody) : (s.captureGroup bodies).asm = s.asm := rfl
@[simp] theorem State.captureGroup_eval (bodies : List RecordBody) : (s.captureGroup bodies).eval = s.eval := rfl
@[simp] theorem State.captureGroup_timers (bodies : List RecordBody) : (s.captureGroup bodies).timers =
    s.timers := rfl
@[simp] theorem State.captureGroup_field (bodies : List RecordBody) : (s.captureGroup bodies).field = s.field := rfl
@[simp] theorem State.captureGroup_fault (bodies : List RecordBody) : (s.captureGroup bodies).fault = s.fault := rfl
@[simp] theorem State.captureGroup_capture (bodies : List RecordBody) : (s.captureGroup bodies).capture =
    s.capture.addGroup s.timeBase bodies := rfl
@[simp] theorem State.captureGroup_service (bodies : List RecordBody) : (s.captureGroup bodies).service =
    s.service := rfl
@[simp] theorem State.captureGroup_agenda (bodies : List RecordBody) : (s.captureGroup bodies).agenda =
    s.agenda := rfl
@[simp] theorem State.captureGroup_echoes (bodies : List RecordBody) : (s.captureGroup bodies).echoes =
    s.echoes := rfl
@[simp] theorem State.captureGroup_freeIndex (bodies : List RecordBody) : (s.captureGroup bodies).freeIndex =
    s.freeIndex := rfl

/-! ### R134: `State.putTimers` -/

@[simp] theorem State.putTimers_pending (u : TimerUnit) : (s.putTimers u).pending = s.pending := rfl
@[simp] theorem State.putTimers_lifecycle (u : TimerUnit) : (s.putTimers u).lifecycle = s.lifecycle := rfl
@[simp] theorem State.putTimers_timeBase (u : TimerUnit) : (s.putTimers u).timeBase = s.timeBase := rfl
@[simp] theorem State.putTimers_loader (u : TimerUnit) : (s.putTimers u).loader = s.loader := rfl
@[simp] theorem State.putTimers_commit (u : TimerUnit) : (s.putTimers u).commit = s.commit := rfl
@[simp] theorem State.putTimers_image (u : TimerUnit) : (s.putTimers u).image = s.image := rfl
@[simp] theorem State.putTimers_roster (u : TimerUnit) : (s.putTimers u).roster = s.roster := rfl
@[simp] theorem State.putTimers_join (u : TimerUnit) : (s.putTimers u).join = s.join := rfl
@[simp] theorem State.putTimers_asm (u : TimerUnit) : (s.putTimers u).asm = s.asm := rfl
@[simp] theorem State.putTimers_eval (u : TimerUnit) : (s.putTimers u).eval = s.eval := rfl
@[simp] theorem State.putTimers_timers (u : TimerUnit) : (s.putTimers u).timers = u := rfl
@[simp] theorem State.putTimers_field (u : TimerUnit) : (s.putTimers u).field = s.field := rfl
@[simp] theorem State.putTimers_fault (u : TimerUnit) : (s.putTimers u).fault = s.fault := rfl
@[simp] theorem State.putTimers_capture (u : TimerUnit) : (s.putTimers u).capture = s.capture := rfl
@[simp] theorem State.putTimers_service (u : TimerUnit) : (s.putTimers u).service = s.service := rfl
@[simp] theorem State.putTimers_agenda (u : TimerUnit) : (s.putTimers u).agenda = s.agenda := rfl
@[simp] theorem State.putTimers_echoes (u : TimerUnit) : (s.putTimers u).echoes =
    s.echoes ++ doneChanges s.timers u := rfl
@[simp] theorem State.putTimers_freeIndex (u : TimerUnit) : (s.putTimers u).freeIndex = s.freeIndex := rfl

end Sys2Proof.Machine
end

