-- ==== Sys2Proof/Laws/Withdrawals.lean ====
section
/-! SUPPORT. What the withdrawals change: the mark of the frame in flight, and the slot, set or session they take their
claim from (R74, R102, R169). -/

namespace Sys2Proof.Machine

/-! ### The frame in flight -/

theorem FlightKept.refl (s : State) : FlightKept s s := ⟨id, fun fl h => ⟨fl.withdrawn, h, id⟩⟩

theorem FlightKept.of {s t : State} (h : t.commit.flight = s.commit.flight) : FlightKept s t :=
  ⟨fun n => h.trans n, fun fl hf => ⟨fl.withdrawn, h.trans hf, id⟩⟩

theorem FlightKept.trans {a b c : State} (h : FlightKept a b) (k : FlightKept b c) : FlightKept a c := by
  refine ⟨fun n => k.1 (h.1 n), fun fl hf => ?_⟩
  obtain ⟨w, hw, mw⟩ := h.2 fl hf
  obtain ⟨v, hv, mv⟩ := k.2 _ hw
  exact ⟨v, hv, fun x => mv (mw x)⟩

/-- R74: the mark of the frame in flight, and nothing else. -/
theorem withdrawFlight_eq (s : State) (claims : Origin → Bool) :
    FlightKept s (s.withdrawFlight claims) ∧
    ∃ fl, s.withdrawFlight claims = { s with commit := { s.commit with flight := fl } } := by
  unfold State.withdrawFlight
  split
  · rename_i fl h
    split
    · refine ⟨⟨fun n => by simp [n] at h, fun fl' h' => ?_⟩, _, rfl⟩
      rw [h] at h'; cases h'; exact ⟨true, rfl, fun _ => rfl⟩
    · exact ⟨FlightKept.refl s, _, rfl⟩
  · exact ⟨FlightKept.refl s, _, rfl⟩

/-! ### Image service (R102) -/

/-- A snapshot for another joiner stays, with its part in the slot. -/
theorem dropSnapshotFor_eq (s : State) (j : Station) :
    FlightKept s (s.dropSnapshotFor j) ∧ ∃ fl, s.dropSnapshotFor j =
      { s with
        commit := { s.commit with flight := fl }
        join := { s.join with snapshot := snapshotWithout s j }
        asm := { s.asm with partSlot := partSlotWithout s j } } := by
  obtain ⟨kept, fl, eq⟩ := withdrawFlight_eq s fun o => decide (o = .part)
  unfold State.dropSnapshotFor snapshotWithout partSlotWithout
  cases h : s.join.snapshot with
  | none =>
    have same : { s.join with snapshot := none } = s.join := by cases hj : s.join; simp_all
    exact ⟨FlightKept.refl s, s.commit.flight, by simp [same]⟩
  | some sn =>
    by_cases own : sn.joiner = j
    · simp only [own, if_true, State.dropSnapshot, Option.filter_some, Option.any_some]
      by_cases part : s.asm.partSlot = true
      · simp only [part, if_true, eq] at kept ⊢
        exact ⟨kept, fl, by simp⟩
      · simp only [part]
        exact ⟨FlightKept.of rfl, s.commit.flight, by simp⟩
    · have same : { s.join with snapshot := some sn } = s.join := by cases hj : s.join; simp_all
      simp only [own, if_false]
      exact ⟨FlightKept.refl s, s.commit.flight, by simp [own, Option.filter, same]⟩

theorem withdrawBusy_eq (s : State) (j : Station) :
    FlightKept s (s.withdrawBusy j) ∧ ∃ fl, s.withdrawBusy j =
      { s with
        commit := { s.commit with flight := fl }
        asm := { s.asm with busySet := eraseStation j s.asm.busySet } } := by
  obtain ⟨kept, fl, eq⟩ := withdrawFlight_eq s fun o => decide (o = .busy j)
  unfold State.withdrawBusy
  dsimp only
  split
  · simp only [eq] at kept ⊢
    exact ⟨kept, fl, rfl⟩
  · exact ⟨FlightKept.of rfl, _, rfl⟩

theorem mem_insertStation {x z : Station} {l : List Station} : z ∈ insertStation x l ↔ z = x ∨ z ∈ l := by
  induction l with
  | nil => simp [insertStation]
  | cons t l ih => unfold insertStation; split_ifs <;> simp_all <;> tauto

theorem mem_eraseStation {x z : Station} {l : List Station} : z ∈ eraseStation x l ↔ z ∈ l ∧ z ≠ x := by
  simp [eraseStation]

/-! ### The service unit (R169) -/

/-- `t` differs from `s` at most in the service unit, its two slots, and the mark of the frame in flight. -/
def ServiceOnly (s t : State) : Prop :=
  FlightKept s t ∧
  t = { s with
    commit := { s.commit with flight := t.commit.flight }
    asm := { s.asm with responseSlot := t.asm.responseSlot, releaseSlot := t.asm.releaseSlot }
    service := t.service }

theorem ServiceOnly.refl (s : State) : ServiceOnly s s := ⟨FlightKept.refl s, rfl⟩

theorem ServiceOnly.trans {a b c : State} (h : ServiceOnly a b) (k : ServiceOnly b c) : ServiceOnly a c := by
  refine ⟨h.1.trans k.1, ?_⟩
  have eq := k.2
  rw [h.2] at eq
  exact eq

theorem ServiceOnly.of (s : State) (v : ServiceUnit) (r : Option Response) (q : Option Station) :
    ServiceOnly s { s with asm := { s.asm with responseSlot := r, releaseSlot := q }, service := v } :=
  ⟨FlightKept.of rfl, rfl⟩

theorem withdrawFlight_only (s : State) (claims : Origin → Bool) : ServiceOnly s (s.withdrawFlight claims) := by
  obtain ⟨kept, fl, eq⟩ := withdrawFlight_eq s claims
  exact ⟨kept, by rw [eq]⟩

theorem withdrawResponse_only (s : State) : ServiceOnly s s.withdrawResponse := by
  unfold State.withdrawResponse
  dsimp only
  split
  · exact (withdrawFlight_only s _).trans (.of _ _ _ _)
  · exact .of _ _ _ _

theorem withdrawRelease_only (s : State) : ServiceOnly s s.withdrawRelease := by
  unfold State.withdrawRelease
  dsimp only
  split
  · exact (withdrawFlight_only s _).trans (.of _ _ _ _)
  · exact .of _ _ _ _

theorem handResponse_only (s : State) : ServiceOnly s s.handResponse := by
  unfold State.handResponse
  split
  · exact .refl s
  · split
    · exact .of _ _ _ _
    · split
      · exact .refl s
      · exact .of _ _ _ _
    · exact .refl s

theorem abandonSession_only (s : State) : ServiceOnly s s.abandonSession := by
  unfold State.abandonSession
  dsimp only
  refine ServiceOnly.trans ?_ (handResponse_only _)
  refine ServiceOnly.trans ?_ (withdrawRelease_only _)
  split
  · exact (ServiceOnly.of _ _ _ _).trans (withdrawResponse_only _)
  · exact .of _ _ _ _

theorem abandonSessionOf_only (s : State) (y : Station) : ServiceOnly s (s.abandonSessionOf y) := by
  unfold State.abandonSessionOf
  split
  · split
    · exact abandonSession_only s
    · exact .refl s
  · exact .refl s

/-- R169: a requester's departure. -/
theorem requesterLeft_only (s : State) (y : Station) : ServiceOnly s (s.requesterLeft y) := by
  unfold State.requesterLeft
  dsimp only
  refine ServiceOnly.trans ?_ (handResponse_only _)
  have erased : ServiceOnly s { s.abandonSessionOf y with
      service.busyList := eraseEntry y (s.abandonSessionOf y).service.busyList } :=
    (abandonSessionOf_only s y).trans (.of _ _ _ _)
  split
  · exact erased.trans (withdrawResponse_only _)
  · exact erased

end Sys2Proof.Machine
end

