-- ==== Sys2Proof/Tests/Slice0.lean ====
section
/-! SUPPORT. The model's own tests: ill-formed commands, the worked sequence of section 2.11 of the spec, one step of
each family, and for every statement with hypotheses a state and operands that meet them. -/

namespace Sys2Proof.Tests

open Sys2Proof Sys2Proof.Machine

set_option Elab.async false

/-! ### Small states -/

/-- A configuration with one CONTRIBUTE term (IN00 to P130), one marker term and one SET term. -/
def setup : StationSetup where
  bitRate := .k500
  period := 50
  pacingGap := 2
  filters := 0 :: List.replicate 15 5
  outputs := List.replicate 12 ⟨5, true, false⟩
  gates := List.replicate 8 ⟨none, 0, .quiet⟩
  timers := List.replicate 16 ⟨.delayOn, 1, 2, 0⟩
  counters := List.replicate 8 ⟨3, 0, none⟩
  capture := ⟨none, false, false, 0⟩
  faultPoint := some 4
  terms := [⟨[⟨false, .input 0⟩], 0, .contribute 130⟩, ⟨[⟨false, .point 180⟩], 0, .output 1⟩,
    ⟨[⟨false, .input 1⟩], 0, .set 181⟩]

/-- The roster of section 2.11: 1, 3 and 5 ACTIVE, 2 LOST, 4 JOINING. -/
def roster : Roster :=
  (((((Roster.initial.update 1 fun _ => ⟨.active, 50, some 7, none⟩).update 2 fun _ => ⟨.lost, 50, none, none⟩).update 3
    fun _ => ⟨.active, 50, none, none⟩).update 4 fun _ => ⟨.joining, 50, none, some 7⟩).update 5
    fun _ => ⟨.active, 50, some 7, none⟩)

/-- Station 3, just handed over to LISTEN. -/
def listener : State :=
  { State.reset with
    lifecycle := .listen
    loader := ⟨3, 3, false, .none, some setup⟩
    commit := { CommitUnit.reset with idle := 10 }
    join := { JoinController.reset with listenTimer := some 0 }
    asm := { Assembler.reset with rows := contributionTable setup }
    eval := Evaluator.atHandover setup false }

/-- Station 3, ACTIVE, with the roster of section 2.11. -/
def station : State :=
  { listener with
    lifecycle := .active
    image := ⟨.complete, Image.initial, List.replicate 32 none⟩
    roster := roster
    join := JoinController.reset
    asm := { listener.asm with rollTimer := some 0 }
    eval := { listener.eval with
      src := { listener.eval.src with ownActive := true }
      gates := List.replicate 9 .opened } }

/-- Station 3, JOINING with station 1 as its respondent of record. -/
def joiner : State :=
  { listener with
    lifecycle := .joining
    join := { JoinController.reset with respondent := some 1, candidates := [1, 5], answerTimer := some 0 } }

/-- Station 3, a founder that nobody has answered. -/
def founder : State :=
  { listener with
    lifecycle := .joining
    image := ⟨.frozen, Image.initial, List.replicate 32 none⟩
    roster := Roster.initial.update 3 fun _ => ⟨.joining, 50, none, none⟩
    join := { JoinController.reset with answerTimer := some 0 } }

/-- A state with `f` of `origin` in flight. -/
def flying (s : State) (f : Frame) (origin : Origin) : State :=
  { s with commit := { s.commit with flight := some ⟨f, origin, false⟩ } }

/-- The same with the claim withdrawn. -/
def flyingWithdrawn (s : State) (f : Frame) (origin : Origin) : State :=
  { s with commit := { s.commit with flight := some ⟨f, origin, true⟩ } }

/-- A state with another input, timer or output. -/
def withInput (s : State) (n : Nat) (i : FieldInput) : State :=
  { s with field := { s.field with inputs := s.field.inputs.set n i } }

def withTimer (s : State) (n : Nat) (t : TimerState) : State :=
  { s with timers := { s.timers with timers := s.timers.timers.set n t } }

def withOutput (s : State) (n : Nat) (o : FieldOutput) : State :=
  { s with field := { s.field with outputs := s.field.outputs.set n o } }

/-- Whether the command goes on to a state with the property. -/
def reaches (c : Instr) (s : State) (p : State → Bool) : Bool :=
  match exec c s with
  | .next t => p t
  | .fault _ => false
  | .refused _ => false

/-- The hypotheses of `LivePeerFrame` as one test. -/
def live (s : State) (f : Frame) : Bool :=
  !s.loader.held && s.lifecycle.participates && s.image.standing = .complete && (s.commit.flownAs? f).isNone
    && decide (s.received? f = some (.ok f)) && frameSender f ≠ s.number && accepts s.roster f

theorem live_of {s : State} {f : Frame} (h : live s f = true) : LivePeerFrame s f := by
  simp only [live, Bool.and_eq_true, Bool.not_eq_true', decide_eq_true_eq, Option.isNone_iff_eq_none] at h
  exact ⟨h.1.1.1.1.1.1, h.1.1.1.1.1.2, h.1.1.1.1.2, h.1.1.1.2, h.1.1.2, h.1.2, h.2⟩

theorem own_of {s : State} {fl : Flight} (h : s.loader.held = false ∧ s.commit.flight = some fl ∧
    frameSender fl.frame = s.number) : OwnFrame s fl := ⟨h.1, h.2.1, h.2.2⟩

theorem reached_of {timer : Option Nat} {limit : Nat} (h : reached timer limit = true) : HasReached timer limit :=
  reached_iff.mp h

theorem not_reached_of {timer : Option Nat} {limit : Nat} (h : reached timer limit = false) : ¬ HasReached timer limit :=
  fun k => by simp [reached_iff.mpr k] at h

theorem quiet_of {s : State} (h : s.agenda = [] ∧ s.echoes = []) : s.Quiet := h

/-! ### Ill-formed commands (R40), one for each check -/

theorem test_ill_formed_stations :
    (Instr.loss 0 5).wellFormed = false ∧ (Instr.rollcall 31 50).wellFormed = false ∧
    (Instr.release 5 31).wellFormed = false ∧ (Instr.busy 5 0).wellFormed = false ∧
    (Instr.loss 5 5).wellFormed = false ∧ (Instr.join 5 5 50).wellFormed = false ∧
    (Instr.join 5 31 50).wellFormed = false ∧ (Instr.straySetExpiry 0).wellFormed = false ∧
    (Instr.silenceLimit 31).wellFormed = false ∧ (Instr.entryDeadline 31).wellFormed = false := by decide

theorem test_ill_formed_periods :
    (Instr.rollcall 5 9).wellFormed = false ∧ (Instr.join 5 0 251).wellFormed = false ∧
    (Instr.entry 5 0 []).wellFormed = false ∧ (Instr.rollcall 5 10).wellFormed = true ∧
    (Instr.rollcall 5 250).wellFormed = true := by decide

theorem test_ill_formed_items :
    (Instr.update 5 []).wellFormed = false ∧
    (Instr.update 5 (List.replicate 13 (.level 4 true))).wellFormed = false ∧
    (Instr.entry 5 50 [.set 180]).wellFormed = false ∧ (Instr.update 1 [.level 180 true]).wellFormed = false ∧
    (Instr.update 1 [.set 175]).wellFormed = false ∧ (Instr.update 1 [.clear 224]).wellFormed = false ∧
    (Instr.update 1 [.pulse 223 1]).wellFormed = false ∧ (Instr.update 1 [.pulse 224 0]).wellFormed = false ∧
    (Instr.update 1 [.pulse 256 1]).wellFormed = false ∧ (Instr.update 1 [.set 180]).wellFormed = true := by decide

theorem test_ill_formed_parts :
    (Instr.image 1 3 33 (.roster [])).wellFormed = false ∧ (Instr.image 1 3 1 (.roster [])).wellFormed = false ∧
    (Instr.image 1 3 0 (.roster (List.replicate 29 (.absent, 0)))).wellFormed = false ∧
    (Instr.image 1 3 0 (.roster (List.replicate 30 (.absent, 50)))).wellFormed = false ∧
    (Instr.image 1 3 0 (.roster (List.replicate 30 (.lost, 0)))).wellFormed = false ∧
    (Instr.image 1 3 16 (.any (List.replicate 7 []))).wellFormed = false ∧
    (Instr.image 1 3 17 (.all (List.replicate 8 [(2, .on), (2, .off)]))).wellFormed = false ∧
    (Instr.image 1 3 23 (.held (List.replicate 8 ⟨true, none, 0⟩))).wellFormed = false ∧
    (Instr.image 1 3 29 (.count (List.replicate 8 ⟨1, none⟩))).wellFormed = false ∧
    (Instr.image 1 3 32 (.count (List.replicate 8 ⟨1, some 30⟩))).wellFormed = true := by decide

theorem test_ill_formed_service :
    (Instr.readCapture 5 3 0 100 0).wellFormed = false ∧ (Instr.readCapture 5 3 0 100 49).wellFormed = false ∧
    (Instr.readCapture 5 3 0 100 10).wellFormed = true ∧ (Instr.releaseStation 5 3 0 0).wellFormed = false ∧
    (Instr.svcRsp 5 3 0 .done 0 1 []).wellFormed = false ∧ (Instr.svcRsp 5 3 0 .done 2 1 []).wellFormed = false ∧
    (Instr.svcRsp 5 3 0 .done 1 64 []).wellFormed = false ∧
    (Instr.svcRsp 5 3 0 .done 1 1 (List.replicate 33 0)).wellFormed = false ∧
    (Instr.readPoint 5 5 0 0).wellFormed = false ∧ (Instr.pulseWindowExpiry 223).wellFormed = false ∧
    (Instr.pulseWindowExpiry 224).wellFormed = true := by decide

/-! ### Frames as bits (R38, R39) -/

/-- A ROLLCALL of station 5 with P 50: rank 0111, sender 00101, P 00110010, sixteen check bits. -/
theorem test_rollcall_bits :
    coveredBits (.rollcall 5 50) = [false, true, true, true, false, false, true, false, true,
      false, false, true, true, false, false, true, false] ∧
    (encodeFrame (.rollcall 5 50)).length = 33 ∧ decodeFrame (encodeFrame (.rollcall 5 50)) = .ok (.rollcall 5 50) := by
  decide +kernel

/-- The frame lengths of section 2.11. -/
theorem test_frame_lengths :
    (encodeFrame (.loss 1 2)).length = 30 ∧ (encodeFrame (.join 1 0 50)).length = 38 ∧
    (encodeFrame (.entry 1 50 [])).length = 37 ∧
    (encodeFrame (.update 1 [.level 4 true, .pulse 230 3])).length = 58 ∧
    (encodeFrame (.update 1 (List.replicate 12 (.level 4 true)))).length = 161 ∧
    (encodeFrame (.svcReq 5 3 0 (.readCapture 100 10))).length = 64 ∧
    (encodeFrame (.image 1 2 23 (.held (List.replicate 8 ⟨false, none, 0⟩)))).length = 148 := by decide +kernel

/-- A wrong check field, a frame cut short and a broken cell are malformed. -/
theorem test_malformed_bits :
    decodeFrame ((encodeFrame (.rollcall 5 50)).modify 20 (!·)) = .error .badCheckField ∧
    decodeFrame ((encodeFrame (.rollcall 5 50)).take 32) = .error .slotMisplaced ∧
    judgeCells ((encodeFrame (.rollcall 5 50)).map Cell.bit) = .ok (.rollcall 5 50) ∧
    judgeCells [.bit true, .broken] = .error .brokenCell := by decide +kernel

/-- R26, R47: an item count of 13 leaves the slot position unknown; a LOSS has its position from its rank on; a cell
opened there is a misplaced slot. -/
theorem test_record_places_the_slot :
    (receptionRecord ((fieldBits 4 6 ++ fieldBits 5 4 ++ fieldBits 4 13).map Cell.bit)).slot = none ∧
    (receptionRecord ((fieldBits 4 6 ++ fieldBits 5 4 ++ fieldBits 4 13).map Cell.bit)).verdict = some .badItemCount ∧
    (receptionRecord ((fieldBits 4 0).map Cell.bit)).slot = some 30 ∧
    (receptionRecord ((encodeFrame (.loss 1 2)).map Cell.bit)).fields = [0, 1, 2] ∧
    (receptionRecord ((encodeFrame (.loss 1 2)).map Cell.bit)).verdict = none ∧
    (receptionRecord ((encodeFrame (.loss 1 2) ++ [true]).map Cell.bit)).verdict = some .slotMisplaced := by decide +kernel

/-- R49: the table of the sender's standing, and R51 after the key. -/
theorem test_sender_standing :
    senderStanding 8 true (.bit false) = .lost ∧ senderStanding 8 false (.bit true) = .aborts ∧
    senderStanding 0 true .broken = .aborts ∧ senderStanding 0 false (.bit false) = .continues ∧
    senderStanding 9 true (.bit false) = .aborts := by decide

/-! ### The worked sequence of section 2.11 -/

theorem test_step1_vetoes :
    reaches (.update 1 [.level 180 true]) station (fun t => t.commit.vetoes = 1 && t.image = station.image) = true := by
  decide +kernel

/-- Before its hand-offs are taken, whose order is free. -/
theorem test_step2_sets_P180 :
    (State.commitFrame { station with commit := { station.commit with vetoes := 1 } } (.update 1 [.set 180])).commit.vetoes
      = 0 ∧
    (station.commitFrame (.update 1 [.set 180])).image.points.heldRecord 180 = ⟨true, some 1, 1⟩ ∧
    (station.commitFrame (.update 1 [.set 180])).roster.entry 1 = ⟨.active, 50, some 0, none⟩ ∧
    (station.commitFrame (.update 1 [.set 180])).agenda =
      [.pointsApplied [(180, true)], .source (.point 180) true, .group [⟨.set, 1, some 180, some true, none⟩]] := by decide +kernel

theorem test_step3_ignores_a_lost_sender :
    reaches (.update 2 [.level 130 true]) station (fun t =>
      t.image = station.image && t.commit.vetoes = 0 && t.join.stray = [(2, 0)]) = true := by decide +kernel

theorem test_step4_ignores_a_joining_sender :
    reaches (.rollcall 4 50) station (fun t => t.roster = station.roster && t.join.stray = []) = true := by decide +kernel

theorem test_step5_accepts_a_join :
    reaches (.join 2 1 50) station (fun t => t.roster.entry 2 = ⟨.joining, 50, none, some 0⟩) = true := by decide +kernel

theorem test_step7_opens_a_session :
    reaches (.readCapture 5 3 9 100 10) station (fun t =>
      t.service.session = some ⟨5, 9, .readCapture 100 10, 5, 1, false, .done⟩ &&
      t.asm.responseSlot = some .sessionPart) = true := by decide +kernel

/-! ### One step of the other families -/

theorem test_held_in_reset : reaches .idleReached State.reset (fun t => t = State.reset) = true := by decide +kernel

theorem test_release_of_the_reset_line :
    reaches (.resetRelease 9) State.reset (fun t => t.number = 9 && t.loader.phase = .header) = true ∧
    reaches (.resetRelease 31) State.reset (fun t => t.lifecycle = .configFault && t.fault.line) = true := by
  decide +kernel

theorem test_contribution_becomes_due :
    reaches (.inputLineChange 0 true) station (fun t =>
      updateItems t.asm t.setup.faultPoint = [.level 130 true]) = true := by decide +kernel

theorem test_set_fires_once :
    reaches (.filterRunExpiry 1) (withInput station 1 ⟨true, false, some 5⟩) (fun t =>
      t.asm.requests = [⟨181, .set, false⟩] && t.eval.src.inputs.getD 1 false) = true := by decide +kernel

theorem test_update_is_started :
    reaches .frameStart { station with asm := { station.asm with requests := [⟨181, .set, false⟩] } } (fun t =>
      t.commit.flight = some ⟨.update 3 [.set 181], .update, false⟩ &&
      t.asm.requests = [⟨181, .set, true⟩]) = true := by decide +kernel

/-- The pulse of P230 before its hand-offs are taken, and the expiry of its window. -/
theorem test_pulse_counts_and_expires :
    (station.commitFrame (.update 1 [.pulse 230 5])).image.points.countRecord 230 = ⟨5, some 1⟩ ∧
    (station.commitFrame (.update 1 [.pulse 230 5])).image.pulseFlag 6 = true ∧
    (station.commitFrame (.update 1 [.pulse 230 5])).agenda =
      [.pointsApplied [(230, true)], .source (.point 230) true, .pulse 230 5, .group [⟨.pulse, 1, some 230, some true, some 5⟩]] ∧
    reaches (.pulseWindowExpiry 230)
      { station with image := { station.image with windows := station.image.windows.set 6 (some 10) } }
      (fun t => !t.image.pulseFlag 6) = true := by decide +kernel

/-- R13: a window that a PULSE has started again does not expire with the expiry queued before. -/
theorem test_stale_expiry_does_not_happen :
    reaches (.pulseWindowExpiry 230)
      { station with image := { station.image with windows := station.image.windows.set 6 (some 0) } }
      (fun t => t.image.pulseFlag 6) = true ∧
    reaches (.silenceLimit 5) station (fun t => t.asm.lossSet = []) = true := by decide +kernel

/-- R18, R32: two points of one UPDATE; a term on both, evaluated at the first point's change, sees the second. -/
theorem test_terms_see_the_whole_frame :
    let terms : List Term := [⟨[⟨false, .point 180⟩, ⟨true, .point 181⟩], 0, .set 190⟩]
    let ctx : EvalContext := ⟨{ setup with terms := terms }, .active, .complete⟩
    let e := { station.eval with
      src := station.eval.src.putPoints [(180, true), (181, true)], results := [false], remembered := [false] }
    (takeEvent ctx (.source (.point 180) true) e).requests = [] ∧
    (takeEvent ctx (.source (.point 180) true) { e with src := station.eval.src }).requests = [⟨190, .set⟩] := by
  decide +kernel

/-- R55: a frame whose start a listener has not seen is activity and no observed commit. -/
theorem test_frame_joined_midway :
    reaches (.rollcall 1 50) { listener with commit := CommitUnit.reset } (fun t =>
      t.join.activity && t.join.candidates = []) = true ∧
    reaches (.rollcall 1 50) listener (fun t => t.join.activity && t.join.candidates = [1]) = true := by decide +kernel

/-- R40, R52: a frame with a recorded cell that was misread is vetoed by its check field. -/
theorem test_misread_cell_is_vetoed :
    reaches (.rollcall 1 50)
      { station with commit := { station.commit with
        reception := some ((encodeFrame (.rollcall 1 50)).take 12 |>.modify 10 (!·) |>.map Cell.bit) } }
      (fun t => t.commit.vetoes = 1) = true := by decide +kernel

theorem test_timer_elapses :
    reaches (.unitExpiry 2) (withTimer station 2 ⟨true, false, true, 1, false, .timing, some 1⟩) (fun t =>
      t.timers.timers.getD 2 TimerState.initial = ⟨true, false, true, 2, true, .elapsed, none⟩ &&
      t.eval.src.timers.getD 2 false) = true := by decide +kernel

theorem test_loss_of_a_peer :
    (station.commitFrame (.loss 1 5)).roster.entry 5 = ⟨.lost, 50, none, none⟩ ∧
    (station.commitFrame (.loss 1 5)).lifecycle = .active ∧
    (station.commitFrame (.loss 1 5)).agenda = [.source (.peer 5) false, .group [⟨.loss, 5, none, none, none⟩]] := by
  decide +kernel

theorem test_listener_founds :
    reaches .listenPeriodExpiry { listener with join := { listener.join with listenTimer := some 200 } } (fun t =>
      t.image.standing = .founding && t.asm.joinSlot = some .join && t.join.choice = 0) = true := by decide +kernel

/-! ### Hypotheses that are met: the start and the medium -/

theorem witness_StepTakesFrontCommand :
    { station with pending := [Instr.idleReached, .frameStart] }.pending = .idleReached :: [.frameStart] := rfl

theorem witness_EmptyQueueLetsTimePass :
    station.pending = [] ∧ station.loader.held = false ∧ State.reset.pending = [] ∧ State.reset.loader.held = true := by
  decide

theorem witness_ResetHoldsEveryBlock : HeldInReset State.reset ∧ ∀ straps, Instr.idleReached ≠ .resetRelease straps :=
  ⟨rfl, nofun⟩

theorem witness_ReleaseReadsStraps :
    station.loader.held = false ∧ State.reset.loader.held = true ∧ (1 ≤ (1#5).toNat ∧ (1#5).toNat ≤ 30) ∧
    (1 ≤ (30#5).toNat ∧ (30#5).toNat ≤ 30) ∧
    (0#5).toNat = 0 ∧ (31#5).toNat = 31 := by decide

/-- The loader waiting for a transfer. -/
def loading (phase : LoaderPhase) : State := { State.reset with loader := ⟨3, 3, false, phase, none⟩ }

/-- The bytes of a block without terms, up to its check word. -/
def blockBody : Block :=
  [1, 0, 168, 2, 50, 0] ++ List.replicate 16 5 ++ (List.replicate 12 [5, 1]).flatten
    ++ List.replicate 32 0 ++ (List.replicate 16 [0, 0, 2]).flatten ++ (List.replicate 8 [0, 3, 0, 0]).flatten
    ++ [0, 0, 0, 0, 0, 0]

/-- Bytes with the check word that they ask for. -/
def checked (body : Block) : Block := body ++ bigEndian 4 (checkSum body)

/-- A block without terms: 168 bytes. -/
def block : Block := checked blockBody

theorem witness_ConfigurationIsReadAndHandedOver :
    (loading .header).loader.held = false ∧ (loading .header).loader.phase = .header ∧
    (loading .none).loader.phase = .none ∧ (loading (.body [1, 0, 168])).loader.phase = .body [1, 0, 168] ∧
    3 ≤ [1#8, 0#8, 168#8].length ∧ Block.word [1, 0, 168] 1 = 168 ∧ Block.word [1, 3, 104] 1 = 872 ∧
    [1#8, 0#8].length < 3 ∧ Block.word [1, 0, 167] 1 < 168 ∧ 872 < Block.word [1, 3, 105] 1 ∧
    (List.replicate 164 0#8).length < Block.word [1, 0, 168] 1 - 3 ∧
    Block.word [1, 0, 168] 1 - 3 ≤ (List.replicate 165 1#8).length ∧
    loadBlock ([1, 0, 168] ++ (List.replicate 165 1).take (Block.word [1, 0, 168] 1 - 3)) = .error ⟨4, 0⟩ ∧
    Block.word [1, 0, 168] 1 - 3 ≤ (block.drop 3).length ∧
    loadBlock ([1, 0, 168] ++ (block.drop 3).take (Block.word [1, 0, 168] 1 - 3)) = .ok (setupOf block []) := by
  decide +kernel

theorem witness_LoadedConfigurationIsInRange : loadBlock block = .ok (setupOf block []) := by decide +kernel

/-- Blocks without terms that put timer 0 into G1 and give G1 the enable literal TM00; `period` is their P. -/
def looped (period : Byte) : Block := checked (((blockBody.set 4 period).set 46 4).set 78 1)

/-- The hypotheses on the bytes, at a wrong tag, a wrong check word, too many terms, a term without literals, a term cut
off and a walk that ends too early. -/
theorem witness_FailingBlocksReportTheirFirstCheck :
    Block.at (block.set 0 2) 0 ≠ 1 ∧ block.at 0 = 1 ∧ checkWordOk (block.set 4 51) = false ∧ checkWordOk block = true ∧
    64 < (checked (blockBody.set 163 65)).at 163 ∧
    (checked (blockBody.set 163 1)).length - 4 < termPlace (checked (blockBody.set 163 1)) 0 + 3 ∧
    (let b := checked (blockBody.set 163 1 ++ [0, 0, 0]); b.at (termPlace b 0 + 2) % 8 < 1) ∧
    (let b := checked (blockBody ++ [0]); termPlace b 0 ≠ b.length - 4) ∧ termPlace block 0 = block.length - 4 ∧
    loadBlock (checked (blockBody ++ [0])) = .error ⟨3, 63⟩ ∧ loadBlock (looped 50) = .error ⟨10, 37⟩ := by
  decide +kernel

/-- A block without terms whose fields are in range and whose gates all lie on short chains can fail only
GATE-REFERENCE. -/
theorem fails_only_reference {b : Block} (count : b.at 163 = 0) (fits : ∀ n, n < 64 → EntryFits b n)
    (chains : ∀ n, n < 8 → (parentOf (setupOf b []))^[3] (n + 1) = 0) {code entry : Nat}
    (h : BlockFails b (setupOf b []) code entry) : code = 10 := by
  unfold BlockFails at h
  split at h
  · rw [count] at h; exact absurd (fits entry h.1) h.2
  · obtain ⟨t, term, -, h, -⟩ := h; simp [setupOf] at h
  · obtain ⟨t, lt, -⟩ := h; simp [setupOf] at lt
  · obtain ⟨-, h⟩ := h
    obtain ⟨_, ⟨t, mem, -⟩, -⟩ := Relation.TransGen.head'_iff.mp h
    simp [setupOf] at mem
  · obtain ⟨n, lt, -, h⟩ := h; exact absurd (chains n lt) h
  · rfl
  · exact h.elim

/-- Every entry of the two blocks is in range. -/
theorem blocks_fit : ∀ b ∈ [block, looped 50], ∀ n, EntryFits b n := by
  have fields : ∀ b ∈ [block, looped 50],
      (b.at 3 ≤ 3 ∧ 10 ≤ b.at 4 ∧ b.at 4 ≤ 250 ∧ b.at 5 ≤ 15) ∧ (∀ m, m < 16 → b.at (6 + m) = 5) ∧
      (∀ m, m < 12 → b.at (22 + 2 * m) = 5 ∧ b.at (23 + 2 * m) = 1) ∧
      (∀ m, m < 8 →
        b.at (46 + 4 * m) ∈ [0, 4] ∧ b.at (47 + 4 * m) = 0 ∧ b.at (48 + 4 * m) = 0 ∧ b.at (49 + 4 * m) = 0) ∧
      (∀ m, m < 16 → b.at (78 + 3 * m) ≤ 1 ∧ b.word (79 + 3 * m) = 2) ∧
      (∀ m, m < 8 → b.word (126 + 4 * m) = 3 ∧ b.at (128 + 4 * m) = 0 ∧ b.at (129 + 4 * m) = 0) ∧
      b.at 158 = 0 ∧ b.at 160 = 0 ∧ b.at 161 = 0 ∧ b.at 163 = 0 := by decide +kernel
  intro b mem n
  obtain ⟨head, filters, outputs, gates, timers, counters, trigger, flags, post, count⟩ := fields b mem
  refine ⟨fun _ => head, fun m lt _ => by simp [filters m lt], fun m lt _ => by simp [outputs m lt], fun m lt _ => ?_,
    fun m lt _ => ?_, fun m lt _ => by simp [counters m lt], fun _ => by simp [LiteralFits, trigger, flags, post],
    fun t lt => by omega⟩
  · obtain ⟨kind, index, parent, mode⟩ := gates m lt
    simp only [List.mem_cons, List.not_mem_nil, or_false] at kind
    rcases kind with kind | kind <;>
      simp [LiteralFits, kind, parent, mode, show 46 + 4 * m + 1 = 47 + 4 * m by omega, index]
  · obtain ⟨kind, preset⟩ := timers m lt
    simp only [preset]; omega

/-- A block that fails RANGE first, one that fails GATE-REFERENCE and nothing else, and one that fails nothing. -/
theorem witness_BlockFails :
    (∀ b ∈ [block, looped 50, looped 9], (List.range (b.at 163)).map (termPlace b) = []) ∧
    BlockFails (looped 9) (setupOf (looped 9) []) 5 0 ∧
    (∀ k e, k < 5 → ¬ BlockFails (looped 9) (setupOf (looped 9) []) k e) ∧
    BlockFails (looped 50) (setupOf (looped 50) []) 10 37 ∧
    (∀ e, e < 37 → ¬ BlockFails (looped 50) (setupOf (looped 50) []) 10 e) ∧
    (∀ k e, k < 10 → ¬ BlockFails (looped 50) (setupOf (looped 50) []) k e) ∧
    ∀ k e, ¬ BlockFails block (setupOf block []) k e := by
  refine ⟨by decide +kernel, ⟨by decide +kernel, fun h =>
    absurd (h.1 rfl).2.1 (by decide +kernel)⟩, fun k e lt h => ?_,
    .inl ⟨0, by decide, rfl, 0, ⟨false, .timer 0⟩, by decide +kernel, by decide +kernel, rfl⟩, fun e lt h => ?_,
    fun k e lt h => ?_, fun k e h => ?_⟩
  · unfold BlockFails at h; split at h <;> omega
  · obtain ⟨n, -, eq, -⟩ | ⟨n, -, eq, -⟩ := h <;> omega
  · have := fails_only_reference (by decide +kernel) (fun n _ => blocks_fit _ (by simp) n) (by decide +kernel) h; omega
  · have ten := fails_only_reference (by decide +kernel) (fun n _ => blocks_fit _ (by simp) n) (by decide +kernel) h
    subst ten
    have bare : ∀ g ∈ (setupOf block []).gates, g.enable = none := by decide +kernel
    have free : ∀ g source, ¬ chainReads (setupOf block []) g source := fun g source ⟨k, l, _, eq, _⟩ => by
      have : ((setupOf block []).gate ((parentOf (setupOf block []))^[k] g)).enable = none := by
        generalize (parentOf (setupOf block []))^[k] g = n
        unfold StationSetup.gate
        rw [List.getD_eq_getElem?_getD]
        cases e : (setupOf block []).gates[n - 1]? with
        | none => rfl
        | some x => exact bare x (List.mem_of_getElem? e)
      simp [this] at eq
    obtain ⟨n, -, -, h⟩ | ⟨n, -, -, h⟩ := h <;> exact free _ _ h

theorem witness_LinkTimersAct :
    station.loader.held = false ∧ State.reset.loader.held = true ∧ station.lifecycle = .active ∧
    HasReached (some 2) station.setup.pacingGap ∧ ¬ HasReached (some 1) station.setup.pacingGap ∧
    HasReached (some 50) station.setup.period ∧ ¬ HasReached (some 49) station.setup.period ∧
    HasReached (entryOf? 2 [(2, 150)]) (3 * station.setup.period) ∧
    ¬ HasReached (entryOf? 2 [(2, 149)]) (3 * station.setup.period) ∧ listener.lifecycle ≠ .active ∧
    ¬ HasReached (some 199) (4 * listener.setup.period) ∧ ¬ HasReached (some 100) (2 * joiner.setup.period + 1) :=
  ⟨rfl, rfl, rfl, reached_of rfl, not_reached_of rfl, reached_of rfl, not_reached_of rfl, reached_of rfl,
    not_reached_of rfl, by decide, not_reached_of rfl, not_reached_of rfl⟩

/-- Station 3 with a SET of P181 pending. -/
def asking : State := { station with asm := { station.asm with requests := [⟨181, .set, false⟩] } }

theorem witness_FrameStartLaunchesTheDueFrame :
    MayStart asking ∧ dueFrame? asking = some (.update 3 [.set 181], .update) ∧ MayStart station ∧
    dueFrame? station = none ∧ ¬ MayStart joiner.resetBlocks ∧ (station.asm.rows.map (·.point)).Pairwise (· < ·) :=
  ⟨by unfold MayStart; decide, by decide +kernel, by unfold MayStart; decide, by decide +kernel, by
    unfold MayStart; decide, by decide⟩

/-- Station 3 with each kind of claim. -/
def claiming : State := { asking with asm := { asking.asm with lossSet := [5, 9], busySet := [4, 7], rollDue := true } }

theorem witness_LowestRankIsChosen :
    SetsAscend claiming ∧ dueFrame? claiming = some (.loss 3 5, .loss) ∧ claiming.asm.lossSet ≠ [] ∧
    dueFrame? { claiming with asm := { claiming.asm with lossSet := [] } } = some (.busy 3 4, .busy 4) ∧
    dueFrame? { joiner with asm := { joiner.asm with joinSlot := some .join } } = some (.join 3 0 50, .joinSlot) ∧
    listener.lifecycle = .listen ∧ joiner.lifecycle = .joining ∧
    dueFrame? { station with asm := { station.asm with rollDue := true } } = some (.rollcall 3 50, .rollcall) ∧
    dueFrame? { station with asm := { station.asm with releaseSlot := some 2 } } = some (.release 3 2, .release) ∧
    dueFrame? { station with
      asm := { station.asm with responseSlot := some (.busyAnswer 5) }
      service := { station.service with busyList := [(5, 7)] } } =
      some (.svcRsp 3 5 7 .busy 1 1 [], .busyAnswer 5) ∧
    dueFrame? { station with
      asm := { station.asm with responseSlot := some .sessionPart }
      service := { station.service with session := some ⟨5, 7, .armCapture, 1, 1, false, .done⟩ } } =
      some (.svcRsp 3 5 7 .done 1 1 [], .sessionPart false) :=
  ⟨⟨by decide, by decide, by decide, by decide⟩, by decide +kernel, by decide, by decide +kernel, by decide +kernel, rfl,
    rfl, by decide +kernel, by decide +kernel, by decide +kernel, by decide +kernel⟩

/-- Station 3 with its ROLLCALL in flight and `cells` of it recorded. -/
def sending (cells : Nat) : State :=
  let s := flying station (.rollcall 3 50) .rollcall
  { s with commit := { s.commit with
    idle := 0
    reception := some ((encodeFrame (.rollcall 3 50)).take cells |>.map Cell.bit) } }

/-- A level of one pulse, at a cell time of 2000 ns. -/
def wave (edge length : Nat) : Waveform := ⟨⟨edge, length⟩, []⟩

/-- The levels of a 1 and of a 0 at their due moment. -/
def one : Waveform := wave 2000 500
def zero : Waveform := wave 2000 1500

/-- The levels of a frame's cells as their sender drives them. -/
def waves (f : Frame) : List Waveform := (encodeFrame f).map fun b => if b then one else zero

/-- R44, R45: shapes at the ends of their ranges, and two edges. -/
theorem test_cell_shapes :
    ([249, 250, 750, 751, 1249, 1250, 1750, 1751].map fun n => readCell 2000 (wave 2000 n)) =
      [.broken, .bit true, .bit true, .broken, .broken, .bit false, .bit false, .broken] ∧
    readCell 2000 ⟨⟨2000, 500⟩, [⟨3749, 100⟩]⟩ = .broken ∧ readCell 2000 one = .bit true ∧
    readCell 2000 zero = .bit false ∧
    takeCells 2000 [] [one, zero, wave 1749 10, wave 2500 250] = some [.bit true, .broken] ∧
    takeCells 2000 [] [one, wave 2751 250, one] = none ∧ takeCell 2000 [.bit true] (wave 2751 250) = none ∧
    takeCell 2000 [.bit true] (wave 2750 250) = some [.bit true] := by
  decide

/-- Pulses of no length, and pulses that touch or stand in the wrong order. -/
theorem test_ill_formed_levels :
    (Instr.activity (.cell (wave 2000 0))).wellFormed = false ∧
    (Instr.activity (.cell ⟨⟨2000, 500⟩, [⟨2500, 100⟩]⟩)).wellFormed = false ∧
    (Instr.veto [one, ⟨⟨2000, 500⟩, [⟨1000, 100⟩]⟩]).wellFormed = false ∧
    (Instr.veto [one, ⟨⟨2500, 250⟩, [⟨3000, 750⟩]⟩]).wellFormed = true := by decide

theorem witness_FailedSendingSettles :
    (sending 8).commit.flight ≠ none ∧ (sending 8).commit.failures < 7 ∧ station.service.restartOpen = false ∧
    { station.commit with failures := 7 }.failures = 7 ∧ station.commit.flight = none ∧
    ((sending 8).commit.reception.getD []).length < 9 ∧ 9 ≤ ((sending 9).commit.reception.getD []).length ∧
    (sending 8).commit.idle < 10 ∧ (sending 8).loader.held = false ∧ (encodeFrame (.rollcall 3 50))[8]? = some true ∧
    (encodeFrame (.rollcall 3 50))[9]? = some false ∧ station.cellTime = 2000 ∧
    (sending 0).commit.reception = some [] ∧ startRecord 2000 (wave 0 1250) = [] ∧
    startRecord 2000 (wave 0 1249) ≠ [] ∧ readCell 2000 (wave 1750 750) = .bit true ∧
    readCell 2000 (wave 2250 1250) = .bit false ∧
    ((sending 33).commit.reception.getD []).length = (encodeFrame (.rollcall 3 50)).length := by decide +kernel

/-- R49 to R52 at station 3, whose ninth key bit is 1: its own 1, a 0, a broken cell, an edge within the cell before, a
cell that does not open; and its own slot, which another station vetoes. -/
theorem test_sender_sees_its_cells :
    (sending 8).drives false = [⟨0, 500⟩] ∧ (sending 33).drives false = [⟨500, 250⟩] ∧
    reaches (.activity (.cell one)) (sending 8) (fun t => t.commit.flight.isSome) = true ∧
    reaches (.activity (.cell zero)) (sending 8) (fun t => t.commit.flight = none && t.commit.failures = 0) = true ∧
    reaches (.activity (.cell (wave 2000 1000))) (sending 8)
      (fun t => t.commit.flight = none && t.commit.failures = 1) = true ∧
    reaches (.activity (.cell (wave 1749 500))) (sending 8) (fun t => t.commit.failures = 1) = true ∧
    reaches (.activity (.cell (wave 2251 500))) (sending 8) (fun t => t.commit.failures = 1) = true ∧
    reaches (.activity (.cell ⟨⟨2500, 250⟩, [⟨3000, 750⟩]⟩)) (sending 33)
      (fun t => t.commit.flight.isSome && t.commit.failures = 0) = true := by decide +kernel

/-- A request list with both kinds of entry for a held-class and a count-class point, and 255 pulses. -/
def busyList : List RequestEntry :=
  [⟨181, .set, true⟩, ⟨230, .pulses 200, true⟩, ⟨181, .clear, false⟩, ⟨230, .pulses 55, false⟩]

theorem witness_OutcomesSettleTheClaims : RequestsInRange busyList := by
  constructor <;> intro p <;> by_cases h : p = 181 <;> by_cases k : p = 230 <;>
    simp_all [busyList, pulsesOf, Wish.pulseCount, eq_comm]

theorem witness_EdgeRequestsReachTheList :
    RequestsInRange busyList ∧ pulsesOf busyList 230 = 255 ∧ pulsesOf busyList 231 < 255 ∧
    (∀ e ∈ busyList, e.point = 231 → e.flying = true) ∧
    busyList = [⟨181, .set, true⟩, ⟨230, .pulses 200, true⟩] ++ ⟨181, .clear, false⟩ :: [⟨230, .pulses 55, false⟩] :=
  ⟨witness_OutcomesSettleTheClaims, by decide, by decide, by decide, rfl⟩

theorem witness_MediumIsFollowed :
    station.loader.held = false ∧ 10 ≤ station.commit.idle ∧ station.lifecycle.onMedium = true ∧
    { station.commit with idle := 9 }.idle < 10 ∧ station.commit.flight = none ∧ { station.commit with reception := some [] }.reception = some [] ∧
    State.reset.resetBlocks.lifecycle.onMedium = false ∧ BitRate.k500.cellTime = 2000 ∧
    (250 = eighths 2000 1 ∧ 750 = eighths 2000 3 ∧ 1250 = eighths 2000 5 ∧ 1750 = eighths 2000 7) := by decide

/-- R45, R48: the levels of a frame up to its slot, one of them with a second edge. -/
theorem test_receiver_follows_the_levels :
    let s := { station with commit := { station.commit with idle := 0, reception := some [.bit true] } }
    let leaves := fun (w : Waveform) (r : Option (List Cell)) =>
      reaches (.activity (.cell w)) s (fun t => t.commit.reception = r && t.commit.idle = 0)
    leaves one (some [.bit true, .bit true]) = true ∧ leaves (wave 1750 1500) (some [.bit true, .bit false]) = true ∧
    leaves (wave 2250 751) (some [.bit true, .broken]) = true ∧ leaves (wave 1749 500) (some [.broken]) = true ∧
    leaves (wave 2251 250) (some [.bit true]) = true ∧ leaves (wave 2751 250) none = true := by decide +kernel

/-- Station 3 with the first cells of station 1's ROLLCALL recorded, one of them as given. -/
def hearing (c : Cell) : State :=
  { station with commit := { station.commit with
    reception := some (c :: ((encodeFrame (.rollcall 1 50)).take 12 |>.drop 1 |>.map Cell.bit)) } }

/-- Station 3 once it has found the frame on the medium stopped. -/
def stopped (s : State) : State := { s with commit := { s.commit with idle := 0, reception := none, stopped := true } }

/-- R48, R57: of a frame found stopped, by FRAME_INCOMPLETE or by a level of its own, the later slot reaches no block and
moves no count, committed or vetoed; the frame after the next idle is taken. -/
theorem test_stopped_frame_is_not_taken :
    let vetoing := { station with commit := { station.commit with vetoes := 2 } }
    let s := stopped vetoing
    reaches .frameIncomplete { vetoing with commit := { vetoing.commit with idle := 0, reception := some [.broken] } }
      (fun t => t = s) = true ∧
    reaches (.loss 1 5) s (fun t => t.roster = s.roster && t.commit.vetoes = 2) = true ∧
    reaches (.veto []) s (fun t => t.commit.vetoes = 2) = true ∧
    reaches (.veto [one, wave 2751 250]) vetoing (fun t => t.commit.vetoes = 2) = true ∧
    reaches (.activity (.cell (wave 2751 250))) { vetoing with commit := { vetoing.commit with
      idle := 0, reception := some [.bit true] } } (fun t => t = s) = true ∧
    reaches .idleReached s (fun t => (t.received? (.loss 1 5)).isSome) = true := by decide +kernel

theorem witness_VetoedSlotMovesTheCounts :
    station.lifecycle.onMedium = true ∧ station.lifecycle.participates = true ∧ station.commit.flight = none ∧
    (flying station (.rollcall 3 50) .rollcall).commit.flight ≠ none ∧
    (judgedCells station (waves (.rollcall 5 50))).map judgeCells = some (.ok (.rollcall 5 50)) ∧
    (judgedCells station [wave 1000 500]).map judgeCells = some (.error .brokenCell) ∧
    judgedCells station [one, wave 2751 250] = none ∧ judgedCells (stopped station) [one] = none ∧
    ({ hearing .broken with commit := { (hearing .broken).commit with idle := 0 } }).drives true = [⟨1000, 750⟩] ∧
    listener.lifecycle = .listen ∧ station.service.restartOpen = false := by decide +kernel

/-! ### Hypotheses that are met: commits of peers -/

theorem witness_StationOutsideTakesNothing :
    let s := { State.reset with lifecycle := Lifecycle.detached, loader := station.loader }
    s.loader.held = false ∧ LifecycleFits s ∧ s.lifecycle = .detached ∧
    (Instr.loss 1 5).frame? = some (.loss 1 5) := ⟨rfl, ⟨by decide, by decide, by decide, by decide, by decide⟩, rfl, rfl⟩

theorem witness_MalformedFrameIsVetoed :
    (Instr.update 1 [.level 180 true]).frame? = some (.update 1 [.level 180 true]) ∧
    station.commit.flownAs? (.update 1 [.level 180 true]) = none ∧
    station.received? (.update 1 [.level 180 true]) = some (.error .itemClass) ∧ station.commit.vetoes < 3 ∧
    { station.commit with vetoes := 3 }.vetoes = 3 ∧
    listener.received? (.update 1 [.level 180 true]) = some (.error .itemClass) ∧
    CommitUnit.reset.idle < 10 ∧ CommitUnit.reset.reception = none ∧ station.commit.stopped = false ∧
    (stopped station).commit.stopped = true ∧ (stopped station).commit.reception = none ∧
    (stopped station).commit.flownAs? (.rollcall 1 50) = none ∧ frameOk (.rollcall 1 50) = true ∧
    (hearing (.bit false)).received? (.rollcall 1 50) = some (.ok (.rollcall 1 50)) ∧
    (hearing (.bit true)).received? (.rollcall 1 50) = some (.error .unknownKind) ∧
    (hearing .broken).received? (.rollcall 1 50) = some (.error .brokenCell) := by
  decide +kernel

theorem witness_DuplicateAndIgnoredFramesAreWatched :
    station.lifecycle.onMedium = true ∧ station.commit.flownAs? (.update 3 [.level 4 false]) = none ∧
    station.received? (.update 3 [.level 4 false]) = some (.ok (.update 3 [.level 4 false])) ∧ frameSender (.update 3 [.level 4 false]) = station.number := by
  decide +kernel

/-- Station 3, whose roster holds nobody else ACTIVE. -/
def alone : State :=
  { station with roster := ((roster.update 1 RosterEntry.lose).update 5 RosterEntry.lose) }

theorem witness_IgnoredFrames :
    station.image.standing = .complete ∧ accepts station.roster (.rollcall 4 50) = false ∧
    station.roster.stateOf 4 = .joining ∧ accepts station.roster (.rollcall 2 50) = false ∧
    station.roster.stateOf 2 = .lost ∧ accepts station.roster (.rollcall 30 50) = false ∧
    station.roster.stateOf 30 = .absent ∧ station.received? (.rollcall 30 50) = some (.ok (.rollcall 30 50)) ∧
    (putEntry 2 0 station.join.stray).length ≤ heardPeers station.number station.roster ∧
    heardPeers alone.number alone.roster < (putEntry 2 0 alone.join.stray).length ∧
    alone.service.restartOpen = false := by decide +kernel

theorem witness_PeerFramesApplyAndBreakSilence :
    LivePeerFrame station (.update 1 [.level 0 true, .level 175 true, .set 176, .clear 223, .pulse 224 1, .pulse 255 255]) ∧
    LivePeerFrame station (.rollcall 1 50) ∧ LivePeerFrame station (.busy 1 5) ∧
    LivePeerFrame station (.image 1 4 17 (.all (List.replicate 8 []))) ∧
    LivePeerFrame station (.svcRsp 5 3 0 .gone 63 63 []) ∧
    (∀ p n, Item.pulse p n ∈ [.pulse 224 1, .pulse 255 255] → 224 ≤ p) ∧ 31 < station.image.windows.length :=
  ⟨live_of (by decide +kernel), live_of (by decide +kernel), live_of (by decide +kernel), live_of (by decide +kernel),
    live_of (by decide +kernel), fun p n h => by
      rcases List.mem_cons.mp h with e | e
      · cases e; decide
      · cases List.mem_singleton.mp e; decide, by decide⟩

theorem witness_CommitHandsOnWhatChanged :
    (∃ n, (Frame.update 1 [.set 180, .pulse 230 3]) = .update 1 n ∧ n[1]? = some (.pulse 230 3)) ∧
    ¬ (50 ≠ station.setup.period ∧ 1 ≠ station.number) ∧ (60 ≠ station.setup.period ∧ 1 ≠ station.number) ∧
    (Frame.loss 1 5) ≠ .rollcall 1 5 := ⟨⟨_, rfl, rfl⟩, by decide, by decide, nofun⟩

theorem witness_ItemsChangeTheirPoint :
    Image.initial.any.length = 128 ∧ Image.initial.all.length = 48 ∧ Image.initial.held.length = 48 ∧
    Image.initial.count.length = 32 ∧ 127 < 128 ∧ (128 ≤ 175 ∧ 175 < 176) ∧ (176 ≤ 223 ∧ 223 < 224) ∧
    (224 ≤ 255 ∧ 255 < 256) := by decide +kernel

theorem witness_RosterFramesChangePoints :
    Image.initial.any.length = 128 ∧ Image.initial.all.length = 48 ∧ 0 < 128 ∧ 127 < 128 ∧ (128 ≤ 128 ∧ 128 < 176) ∧
    (128 ≤ 175 ∧ 175 < 176) ∧ roster.stateOf 5 ≠ .lost ∧ roster.stateOf 2 = .lost := by decide +kernel

theorem witness_RosterTable :
    roster.length = 30 ∧ isStation 1 = true ∧ isStation 30 = true ∧ accepts roster (.join 2 1 50) = true ∧
    accepts roster (.entry 4 50 []) = true ∧ accepts roster (.loss 1 5) = true ∧
    accepts roster (.release 1 2) = true := by decide +kernel

/-- Station 3 with two strays and station 5 the only heard peer. -/
def strayed : State :=
  { station with
    roster := roster.update 1 fun e => { e with silence := none }
    join := { station.join with stray := [(2, 0), (9, 0)] } }

theorem witness_LossTakesEffect :
    LivePeerFrame station (.loss 1 5) ∧ 5 ≠ station.number ∧ station.roster.stateOf 5 = .active ∧
    LivePeerFrame station (.loss 1 2) ∧ station.roster.stateOf 2 ≠ .active ∧ station.roster.stateOf 4 = .joining ∧
    LivePeerFrame station (.loss 1 4) ∧
    ¬ FallsOut station 1 (breakSilence station.number 1 (rosterEffect station.number true (.loss 1 5) station.roster)) ∧
    LivePeerFrame strayed (.loss 5 1) ∧ strayed.service.restartOpen = false :=
  ⟨live_of (by decide +kernel), by decide, by decide +kernel, live_of (by decide +kernel), by decide +kernel, by
    decide +kernel, live_of (by decide +kernel), by unfold FallsOut; decide +kernel, live_of (by decide +kernel), rfl⟩

/-- Two heard peers and two strays: the loss of a heard peer leaves fewer heard peers than strays. -/
theorem witness_FallsOut :
    let s := { station with join := { station.join with stray := [(2, 0), (9, 0)] } }
    LivePeerFrame s (.loss 1 5) ∧
    FallsOut s 1 (breakSilence s.number 1 (rosterEffect s.number true (.loss 1 5) s.roster)) ∧
    LivePeerFrame s (.join 5 0 50) ∧ FallsOut s 5 (s.roster.update 5 (fun _ => ⟨.joining, 50, none, some 0⟩)) ∧
    OwnFrame (flying s (.loss 3 5) .loss) ⟨.loss 3 5, .loss, false⟩ ∧
    FallsOut (flying s (.loss 3 5) .loss) 3 (rosterEffect 3 true (.loss 3 5) s.roster) :=
  ⟨live_of (by decide +kernel), by unfold FallsOut; decide +kernel, live_of (by decide +kernel), by
    unfold FallsOut; decide +kernel, own_of (by decide), by unfold FallsOut; decide +kernel⟩

theorem witness_PeerReleaseAndEntryTakeEffect :
    LivePeerFrame station (.release 1 2) ∧ LivePeerFrame station (.entry 4 50 [.level 130 true]) ∧
    LivePeerFrame station (.entry 1 250 []) ∧ station.join.snapshot = none :=
  ⟨live_of (by decide +kernel), live_of (by decide +kernel), live_of (by decide +kernel), rfl⟩

theorem witness_PeerJoinTakesEffect :
    LivePeerFrame station (.join 2 3 50) ∧ LivePeerFrame station (.join 1 0 10) ∧
    station.roster.stateOf 1 = .active ∧ station.roster.stateOf 2 ≠ .active ∧
    ¬ FallsOut station 2 (station.roster.update 2 (fun _ => ⟨.joining, 50, none, some 0⟩)) ∧
    station.lifecycle = .active ∧ station.join.snapshot = none ∧
    respondentOf (rosterEffect station.number true (.join 2 3 50) station.roster) 3 = some station.number ∧
    respondentOf (rosterEffect station.number true (.join 1 0 10) station.roster) 0 = some station.number ∧
    respondentOf (rosterEffect station.number true (.join 2 1 50) station.roster) 1 ≠ some station.number ∧
    (⟨4, [], Image.initial, 0⟩ : Snapshot).joiner ≠ 2 :=
  ⟨live_of (by decide +kernel), live_of (by decide +kernel), by decide, by decide, by unfold FallsOut; decide +kernel,
    rfl, rfl, by decide +kernel, by decide +kernel, by decide +kernel, by decide⟩

/-- R169: the JOIN of an ACTIVE station abandons its session and takes its part out of the slot. -/
theorem test_join_abandons_the_session :
    let s := { station with
      service := { station.service with session := some ⟨5, 7, .readRoster, 2, 1, false, .done⟩ }
      asm := { station.asm with responseSlot := some .sessionPart, lossSet := [5] } }
    let t := s.takeLiveFrame (.join 5 0 50)
    t.service.session = none ∧ t.asm.responseSlot = none ∧ t.asm.lossSet = [] := by decide +kernel

theorem witness_LossTakesEffect_here :
    LivePeerFrame station (.loss 1 station.number) ∧ station.service.restartOpen = false ∧
    joiner.lifecycle = .joining ∧ joiner.image.standing ≠ .complete ∧ joiner.service.restartOpen = false ∧
    joiner.commit.flownAs? (.loss 1 joiner.number) = none ∧ joiner.received? (.loss 1 joiner.number) = some (.ok (.loss 1 joiner.number)) ∧
    1 ≠ joiner.number :=
  ⟨live_of (by decide +kernel), by decide, by decide, by decide, by decide, by decide, by decide +kernel, by decide⟩

/-- The rollcall of station 1 at two stations that agree: here one state on both sides. -/
theorem witness_ReplicasStayEqual :
    LivePeerFrame station (.rollcall 1 50) ∧ (∃ t, exec (.rollcall 1 50) station = .next t ∧ t.image.standing = .complete) :=
  ⟨live_of (by decide +kernel), _, rfl, by decide +kernel⟩

/-! ### Hypotheses that are met: this station's own frames, listening and joining -/

/-- Station 3 as respondent for station 4. -/
def respondent (k : Nat) : State :=
  { station with
    join := { station.join with snapshot := some ⟨4, rosterCopy roster, Image.initial, k⟩ }
    asm := { station.asm with partSlot := true } }

/-- R102: the commits at which a snapshot stays or leaves, with its part. -/
theorem witness_PeerFrames_at_a_respondent :
    let s := { respondent 5 with asm := { (respondent 5).asm with busySet := [6, 9] } }
    let joins := { s with lifecycle := Lifecycle.joining }
    LivePeerFrame s (.join 2 3 50) ∧ LivePeerFrame s (.join 4 3 50) ∧ LivePeerFrame s (.join 4 1 50) ∧
    LivePeerFrame joins (.join 2 3 50) ∧ LivePeerFrame s (.loss 1 4) ∧ LivePeerFrame s (.loss 1 2) ∧
    LivePeerFrame s (.entry 4 50 []) ∧ LivePeerFrame s (.entry 1 50 []) ∧
    snapshotWithout s 2 = s.join.snapshot ∧ snapshotWithout s 4 = none ∧ partSlotWithout s 2 = true ∧
    partSlotWithout s 4 = false ∧ FlightKept s s ∧
    ¬ FallsOut s 1 (breakSilence s.number 1 (rosterEffect s.number true (.loss 1 2) s.roster)) ∧
    reaches (.loss 1 2) s (fun t => t.join.snapshot = s.join.snapshot && t.asm.partSlot && t.asm.busySet = [6, 9]) ∧
    reaches (.loss 1 4) s (fun t => t.join.snapshot = none && !t.asm.partSlot && t.asm.busySet = [6, 9]) ∧
    reaches (.entry 1 50 []) s (fun t => t.join.snapshot = s.join.snapshot && t.asm.partSlot) ∧
    (s.takeLiveFrame (.entry 4 50 [])).join.snapshot = none ∧ (s.takeLiveFrame (.entry 4 50 [])).asm.partSlot = false ∧
    reaches (.join 2 3 50) s (fun t => t.join.snapshot = s.join.snapshot && t.asm.busySet = [2, 6, 9]) :=
  ⟨live_of (by decide +kernel), live_of (by decide +kernel), live_of (by decide +kernel), live_of (by decide +kernel),
    live_of (by decide +kernel), live_of (by decide +kernel), live_of (by decide +kernel), live_of (by decide +kernel),
    rfl, rfl, rfl, rfl, ⟨id, fun fl h => ⟨fl.withdrawn, h, id⟩⟩, by unfold FallsOut; decide +kernel, by decide +kernel,
    by decide +kernel, by decide +kernel, by decide +kernel, by decide +kernel, by decide +kernel⟩

/-- R73, R168, R172: an own commit clears a due ROLLCALL, and CLEAR-FAULT hands its DONE into an empty slot. -/
theorem test_commits_clear_the_rollcall :
    let due := fun (s : State) => { s with asm := { s.asm with rollDue := true } }
    let clears := fun (c : Instr) (s : State) => reaches c (due s) fun t => !t.asm.rollDue
    clears (.busy 3 4) (flying station (.busy 3 4) (.busy 4)) ∧
    clears (.image 3 4 0 (.count [])) (flying (respondent 0) (.image 3 4 0 (.count [])) .part) ∧
    clears (.svcRsp 3 5 7 .busy 1 1 []) (flying station (.svcRsp 3 5 7 .busy 1 1 []) (.busyAnswer 5)) ∧
    reaches (.clearFault 5 3 7 true) station (fun t => t.asm.responseSlot = some .sessionPart) := by decide +kernel

theorem witness_OwnFramesSettle :
    OwnFrame (flying station (.update 3 [.set 181]) .update) ⟨.update 3 [.set 181], .update, false⟩ ∧
    OwnFrame (flying station (.rollcall 3 50) .rollcall) ⟨.rollcall 3 50, .rollcall, false⟩ ∧
    station.lifecycle = .active ∧ station.roster.stateOf station.number = .active ∧
    5 ≠ station.number ∧
    OwnFrame (flying station (.loss 3 5) .loss) ⟨.loss 3 5, .loss, false⟩ ∧
    ¬ FallsOut (flying station (.loss 3 5) .loss) 3 (rosterEffect 3 true (.loss 3 5) station.roster) ∧
    OwnFrame (flying station (.release 3 2) .release) ⟨.release 3 2, .release, false⟩ ∧
    OwnFrame (flying station (.busy 3 4) (.busy 4)) ⟨.busy 3 4, .busy 4, false⟩ ∧
    OwnFrame (flying (respondent 32) (.image 3 4 32 (.count [])) .part) ⟨.image 3 4 32 (.count []), .part, false⟩ ∧
    (respondent 32).join.snapshot = some ⟨4, rosterCopy roster, Image.initial, 32⟩ ∧
    OwnFrame (flyingWithdrawn station (.release 3 2) .release) ⟨.release 3 2, .release, true⟩ :=
  ⟨own_of (by decide), own_of (by decide), by decide, by decide +kernel, by decide, own_of (by decide), by
    unfold FallsOut; decide +kernel, own_of (by decide), own_of (by decide), own_of ⟨rfl, rfl, rfl⟩, rfl, own_of (by decide)⟩

/-- Station 3 with an open session of station 5. -/
def serving (q : Request) (parts next : Nat) : State :=
  { station with service := { station.service with session := some ⟨5, 7, q, parts, next, false, .done⟩ } }

theorem witness_OwnResponseAdvancesTheSession :
    OwnFrame (flying (serving .readRoster 2 2) (.svcRsp 3 5 7 .done 2 2 []) (.sessionPart false))
      ⟨.svcRsp 3 5 7 .done 2 2 [], .sessionPart false, false⟩ ∧
    (serving .readRoster 2 2).service.session = some ⟨5, 7, .readRoster, 2, 2, false, .done⟩ ∧
    OwnFrame (flying station (.svcRsp 3 5 7 .busy 1 1 []) (.busyAnswer 5))
      ⟨.svcRsp 3 5 7 .busy 1 1 [], .busyAnswer 5, false⟩ := ⟨own_of (by decide), by decide, own_of (by decide)⟩

theorem witness_RestartIsPerformedAtItsDone :
    OwnFrame (flying (serving .restart 1 1) (.svcRsp 3 5 7 .done 1 1 []) (.sessionPart true))
      ⟨.svcRsp 3 5 7 .done 1 1 [], .sessionPart true, false⟩ ∧ station.Quiet ∧
    (serving .restart 1 1).service.restartOpen = true ∧ LivePeerFrame (serving .restart 1 1) (.loss 1 3) ∧
    (serving .restart 1 1).number = 3 ∧ (serving .restart 1 1).lifecycle.participates = true ∧
    (judgedCells (serving .restart 1 1) [wave 1000 500]).map judgeCells = some (.error .brokenCell) ∧
    OwnFrame (flyingWithdrawn (serving .restart 1 1) (.svcRsp 3 5 7 .done 1 1 []) (.sessionPart true))
      ⟨.svcRsp 3 5 7 .done 1 1 [], .sessionPart true, true⟩ :=
  ⟨own_of (by decide), quiet_of (by decide), by decide, live_of (by decide +kernel), rfl, rfl, by decide +kernel,
    own_of (by decide)⟩

/-- R113, R126, R163, R164: the lifecycle change that a detach hands on lets OWN-ACTIVE fall, so a trigger literal that
reads it negated freezes the ring, which a restart keeps. -/
theorem test_detach_triggers_capture :
    let s := State.leaveLink { station with
      loader := { station.loader with config := some { setup with capture := ⟨some ⟨true, .ownActive⟩, false, false, 0⟩ } }
      capture := { CaptureUnit.reset with mode := .armed } } .detached none
    let c := (s.takeHandOff .lifecycleToEvaluator).capture
    HandOff.lifecycleToEvaluator ∈ s.agenda ∧ c.mode = .frozen ∧ c.afterRestart = c := by
  decide +kernel

theorem witness_ListenPeriodAndHoldoffDecide :
    listener.lifecycle = .listen ∧ HasReached (some 200) (4 * listener.setup.period) ∧ listener.join.candidates = [] ∧
    listener.join.activity = false ∧ listener.join.attempts < 3 ∧
    { listener.join with candidates := [1, 5] }.candidates = 1 :: [5] ∧
    { listener.join with activity := true, attempts := 3 }.attempts = 3 ∧
    HasReached (some 103) (2 * listener.setup.period + listener.number) :=
  ⟨rfl, reached_of rfl, rfl, rfl, by decide, rfl, rfl, reached_of rfl⟩

/-- Station 3 in LISTEN, founding. -/
def founding : State :=
  { listener with
    image := ImageBlock.founding
    roster := Roster.initial.update 1 fun _ => ⟨.active, 50, none, none⟩
    join := { listener.join with listenTimer := none } }

theorem witness_ListenerFollowsCommits :
    listener.commit.flownAs? (.update 1 [.set 180]) = none ∧ listener.received? (.update 1 [.set 180]) = some (.ok (.update 1 [.set 180])) ∧
    listener.image.standing = .none ∧ listener.join.listenTimer ≠ none ∧
    { listener.join with listenTimer := none }.listenTimer = none ∧ founding.join.listenTimer = none ∧
    founding.image.standing = .founding ∧ accepts founding.roster (.update 1 [.set 180]) = true ∧
    founding.received? (.rollcall 7 50) = some (.ok (.rollcall 7 50)) ∧ isJoin (.rollcall 7 50) = false ∧
    founding.roster.stateOf 7 = .absent := by decide +kernel

theorem witness_OwnJoinStartsTheTransfer :
    OwnFrame (flying listener (.join 3 1 50) .joinSlot) ⟨.join 3 1 50, .joinSlot, false⟩ ∧
    OwnFrame (flying founding (.join 3 0 50) .joinSlot) ⟨.join 3 0 50, .joinSlot, false⟩ ∧
    OwnFrame (flying joiner (.join 3 5 50) .joinSlot) ⟨.join 3 5 50, .joinSlot, false⟩ ∧ listener.Quiet ∧
    listener.lifecycle = .listen ∧ listener.image.standing = .none ∧ founding.image.standing = .founding ∧
    joiner.lifecycle = .joining ∧ joiner.image.standing = .none :=
  ⟨own_of (by decide), own_of (by decide), own_of (by decide), quiet_of (by decide), rfl, rfl, rfl, rfl, rfl⟩

/-- Parts 0 to `n - 1` of an empty link. -/
def collected (n : Nat) : JoinController :=
  { joiner.join with parts := List.replicate n (.roster []), answerTimer := none, gapTimer := some 0 }

theorem witness_JoinerTakesTheExpectedPart :
    joiner.loader.held = false ∧ 1 ≠ joiner.number ∧ joiner.join.awaiting = false ∧ joiner.join.respondent = some 1 ∧
    joiner.image.standing = .none ∧ 0 = joiner.join.parts.length ∧
    (let part : Frame := .image 1 3 0 (.roster (List.replicate 30 (.absent, 0)))
     joiner.received? part = some (.ok part) ∧ founder.received? part = some (.ok part)) ∧
    founder.image.standing = .frozen ∧ founder.join.parts = [] ∧ founder.join.respondent = none ∧
    (let part : Frame := .image 5 3 31 (.count (List.replicate 8 ⟨0, none⟩))
     joiner.received? part = some (.ok part)) ∧ 31 ≠ joiner.join.parts.length ∧
    (collected 31).parts.length = 31 ∧ (collected 32).parts.length = 32 ∧ (collected 32).awaiting = false ∧
    (collected 32).respondent = some 1 ∧
    (let part : Frame := .image 1 3 32 (.count (List.replicate 8 ⟨0, none⟩))
     { joiner with join := collected 32 }.received? part = some (.ok part)) := by
  decide +kernel

theorem witness_JoinerMovesToItsNextCandidate :
    joiner.lifecycle = .joining ∧ joiner.image.standing = .none ∧ joiner.service.restartOpen = false ∧
    joiner.join.respondent = some 1 ∧ joiner.received? (.busy 1 joiner.number) = some (.ok (.busy 1 joiner.number)) ∧
    HasReached (some 100) (2 * joiner.setup.period) ∧ HasReached (some 101) (2 * joiner.setup.period + 1) ∧
    joiner.join.candidates.find? (fun y => 1 < y) = some 5 ∧ [1, 5].find? (fun y => 5 < y) = none :=
  ⟨rfl, rfl, rfl, rfl, by decide +kernel, reached_of rfl, reached_of rfl, by decide, by decide⟩

theorem witness_SnapshotPartsGiveBackTheImage :
    Image.initial.any.length = 128 ∧ Image.initial.all.length = 48 ∧ Image.initial.held.length = 48 ∧
    Image.initial.count.length = 32 ∧ (respondent 32).asm.partSlot = true ∧
    (respondent 32).join.snapshot = some ⟨4, rosterCopy roster, Image.initial, 32⟩ := by decide +kernel

theorem witness_CompletionAndDepartureHandTheirChanges :
    station.Quiet ∧ station.service.restartOpen = false ∧ (sending 8).Quiet ∧
    (serving .restart 1 1).Quiet ∧ (serving .restart 1 1).service.restartOpen = true ∧
    ({ sending 8 with commit := { (sending 8).commit with failures := 7 } }).commit.failures = 7 ∧
    (sending 8).commit.flight ≠ none ∧ { station.commit with vetoes := 3 }.vetoes = 3 ∧
    (judgedCells station [wave 1000 500]).map judgeCells = some (.error .brokenCell) ∧
    LivePeerFrame station (.loss 1 station.number) ∧
    HasReached (some 103) (2 * station.setup.period + station.number) ∧ { station.join with attempts := 3 }.attempts = 3 ∧
    station.received? (.rollcall 3 50) = some (.ok (.rollcall 3 50)) ∧ frameSender (.rollcall 3 50) = station.number :=
  ⟨quiet_of (by decide), rfl, quiet_of (by decide), quiet_of (by decide), rfl, rfl, by decide, rfl, by decide +kernel, live_of (by decide +kernel),
    reached_of rfl, rfl, by decide +kernel, rfl⟩

theorem witness_FounderCompletesFromItsImage :
    founder.lifecycle = .joining ∧ founder.image.standing = .frozen ∧ founder.join.respondent = none ∧
    HasReached (some 100) (2 * founder.setup.period) ∧ ¬ HasReached (some 99) (2 * founder.setup.period) ∧
    founder.service.restartOpen = false ∧ founder.join.spoiled = false ∧
    (replayBacklog 3 true founder.image.points founder.roster founder.join.backlog).spoiled = false ∧
    (replayBacklog 3 true founder.image.points founder.roster [.update 9 [.set 180]]).spoiled = true ∧
    founder.received? (.busy 1 founder.number) = some (.ok (.busy 1 founder.number)) ∧ founder.join.awaiting = false :=
  ⟨rfl, rfl, rfl, reached_of rfl, not_reached_of rfl, rfl, rfl, by decide +kernel, by decide +kernel, by decide +kernel,
    rfl⟩

/-- The replay of a frame that is accepted, of one that is ignored and of one that spoils. -/
theorem witness_replayBacklog :
    (replayBacklog 3 true Image.initial roster []).spoiled = false ∧ accepts roster (.update 1 [.set 180]) = true ∧
    accepts roster (.update 9 [.set 180]) = false ∧
    (replayBacklog 3 true Image.initial roster [.update 9 [.set 180]]).spoiled = true ∧
    roster.length = 30 ∧ isStation 30 = true := by decide +kernel

theorem witness_BacklogIsKeptAndReplayed :
    joiner.received? (.update 5 [.set 180]) = some (.ok (.update 5 [.set 180])) ∧
    namesLost joiner.number (.update 5 [.set 180]) = false ∧ joiner.join.awaiting = false ∧
    joiner.received? (.rollcall 5 50) = some (.ok (.rollcall 5 50)) ∧
    joiner.received? (.busy 5 4) = some (.ok (.busy 5 4)) ∧ 4 ≠ joiner.number ∧ (List.replicate 63 (Frame.release 5 2)).length < 64 ∧
    64 ≤ (List.replicate 64 (Frame.release 5 2)).length := by decide +kernel

/-- Station 3 with its image complete and its ENTRY in flight. -/
def entering : State :=
  flying { station with
    lifecycle := .joining
    roster := roster.update 3 fun _ => ⟨.joining, 50, none, none⟩
    asm := { station.asm with joinSlot := some .entry } } (.entry 3 50 [.level 4 false, .level 130 true]) .joinSlot

theorem witness_OwnEntryMakesTheStationActive :
    OwnFrame entering ⟨.entry 3 50 [.level 4 false, .level 130 true], .joinSlot, false⟩ ∧ entering.lifecycle = .joining ∧
    entering.image.standing = .complete ∧ entering.roster.length = 30 ∧ isStation entering.number = true ∧
    entering.roster.stateOf entering.number = .joining :=
  ⟨own_of (by decide), rfl, rfl, by decide, by decide, by decide +kernel⟩

/-! ### Hypotheses that are met: service requests, local timers, field lines -/

theorem takes_of {s : State} {x : Station} {tag : Byte} {q : Request} (a : s.lifecycle = .active)
    (h : live s (.svcReq x s.number tag q) = true) : TakesRequest s x tag q := ⟨a, live_of h⟩

theorem witness_RequestsOpenTheSessionOrAreAnsweredBusy :
    station.service.session = none ∧ TakesRequest station 5 0 (.readPoint 255) ∧
    TakesRequest station 5 255 .readRoster ∧ TakesRequest station 5 0 .readLocal ∧ TakesRequest station 5 0 .readFault ∧
    TakesRequest station 5 0 (.readCapture 65535 1) ∧ TakesRequest station 5 0 (.readCapture 0 48) ∧
    TakesRequest station 5 0 .restart ∧
    (Instr.readRoster 1 3 9).frame? = some (.svcReq 1 3 9 .readRoster) ∧
    (serving .readLocal 3 2).service.session = some ⟨5, 7, .readLocal, 3, 2, false, .done⟩ ∧
    TakesRequest (serving .readLocal 3 2) 1 9 .readRoster ∧ TakesRequest (serving .readLocal 3 2) 1 9 .restart ∧
    LivePeerFrame station (.svcReq 1 5 9 .readRoster) ∧ 5 ≠ station.number :=
  ⟨rfl, takes_of rfl (by decide +kernel), takes_of rfl (by decide +kernel), takes_of rfl (by decide +kernel),
    takes_of rfl (by decide +kernel), takes_of rfl (by decide +kernel), takes_of rfl (by decide +kernel),
    takes_of rfl (by decide +kernel), rfl, rfl, takes_of rfl (by decide +kernel), takes_of rfl (by decide +kernel),
    live_of (by decide +kernel), by decide⟩

/-- R175: the hypotheses of the payload statement at the bounds of their ranges. -/
theorem witness_ResponsePartsCarryTheirBlocks :
    (⟨5, 7, .readPoint 0, 1, 1, false, .done⟩ : Session).request = .readPoint 0 ∧ (127#8).toNat < 128 ∧
    (128 ≤ (128#8).toNat ∧ (175#8).toNat < 176) ∧ (176 ≤ (176#8).toNat ∧ (223#8).toNat < 224) ∧ 224 ≤ (255#8).toNat ∧
    (∀ e ∈ station.image.points.contributors 128, e.1 ≤ 30) ∧ (station.image.points.contributors 175).length ≤ 30 ∧
    station.field.inputs.length = 16 ∧ station.field.outputs.length = 12 ∧ station.eval.src.markers.length = 32 ∧
    station.eval.gates.length = 9 ∧ station.timers.timers.length = 16 ∧ station.timers.counters.length = 8 ∧
    station.fault.counts.length = 10 ∧ station.fault.record = none ∧ station.capture.ring = [] ∧
    (∀ i ∈ [0#16], (∀ r ∈ station.capture.ring, r.index ≠ i) ∧ ¬ 48 ≤ (i - station.capture.nextIndex).toNat) ∧
    48 ≤ (65535#16 - station.capture.nextIndex).toNat :=
  ⟨rfl, by decide, by decide, by decide, by decide, by decide +kernel, by decide +kernel, rfl, rfl, rfl, rfl, rfl, rfl, rfl,
    rfl, rfl, fun i hi => ⟨by simp [show station.capture.ring = [] from rfl], by
      rw [List.mem_singleton.mp hi, show station.capture.nextIndex = 0#16 from rfl]; decide⟩, by
      rw [show station.capture.nextIndex = 0#16 from rfl]; decide⟩

theorem witness_CommandRequestsAct :
    station.service.session = none ∧ TakesRequest station 5 0 (.clearFault true) ∧ station.Quiet ∧
    station.fault.counts.length = 10 ∧ 0 ≠ FaultKind.pulseOverflow.code ∧
    (withOutput station 11 ⟨true, false, false, true, .latched, none⟩).field.outputs[11]? =
      some ⟨true, false, false, true, .latched, none⟩ ∧
    TakesRequest station 5 0 .armCapture ∧ TakesRequest station 5 0 (.releaseStation 2) ∧
    station.roster.stateOf 2 = .lost ∧ TakesRequest station 5 0 (.releaseStation 30) ∧
    station.roster.stateOf 30 ≠ .lost :=
  ⟨rfl, takes_of rfl (by decide +kernel), quiet_of (by decide), by decide, by decide, by decide +kernel,
    takes_of rfl (by decide +kernel), takes_of rfl (by decide +kernel), by decide +kernel,
    takes_of rfl (by decide +kernel), by decide +kernel⟩

/-- Station 3 whose roster has station 5 silent for 151 milliseconds and station 4 joining for 4001. -/
def waiting : State :=
  { station with roster := (roster.update 5 fun e => { e with silence := some 151 }).update 4 fun e =>
    { e with deadline := some 4001 } }

theorem witness_ExceededLimitsAskForLoss :
    SilenceExceeded waiting 5 ∧ ¬ SilenceExceeded station 5 ∧ DeadlineExceeded waiting 4 ∧ ¬ DeadlineExceeded station 4 ∧
    waiting.lifecycle.participates = true ∧ waiting.roster.length = 30 ∧ isStation 5 = true ∧
    ¬ (heardPeers 3 (waiting.roster.update 5 fun e => { e with silence := none }) < heardPeers 3 waiting.roster ∧
      heardPeers 3 (waiting.roster.update 5 fun e => { e with silence := none }) < waiting.join.stray.length) ∧
    heardPeers waiting.number (waiting.roster.update 5 fun e => { e with silence := none }) < [(2, 0), (9, 0)].length :=
  ⟨⟨rfl, by decide, by decide +kernel, reached_of (by decide +kernel)⟩, fun h => not_reached_of (by decide +kernel) h.2.2.2,
    ⟨rfl, by decide, by decide +kernel, reached_of (by decide +kernel)⟩, fun h => not_reached_of (by decide +kernel) h.2.2.2,
    rfl, by decide +kernel, by decide, by decide +kernel, by decide +kernel⟩

theorem witness_WindowAndUnitExpiriesAct :
    (224 ≤ 224 ∧ 255 < 256) ∧ HasReached ((List.replicate 32 (some 10)).getD (255 - 224) none) 10 ∧
    station.image.standing = .complete ∧ ¬ HasReached (station.image.windows.getD (224 - 224) none) 10 ∧
    ¬ HasReached (some 9) 10 ∧
    (withTimer station 15 ⟨true, false, true, 0, false, .timing, some 1⟩).timers.timers[15]? =
      some ⟨true, false, true, 0, false, .timing, some 1⟩ ∧ HasReached (some 1) (station.setup.timer 15).base ∧
    0 + 1 ≠ (station.setup.timer 15).preset ∧ 1 + 1 = (station.setup.timer 15).preset ∧
    (false : Bool) = ((station.setup.timer 15).kind = .delayOff) ∧
    ¬ HasReached (some 0) (station.setup.timer 15).base :=
  ⟨by decide, reached_of (by decide +kernel), rfl, not_reached_of (by decide +kernel), not_reached_of rfl, by decide +kernel,
    reached_of (by decide +kernel), by decide, by decide, by decide, not_reached_of (by decide +kernel)⟩

theorem witness_TimerKindsFollowTheirTables :
    (let t : TimerState := ⟨true, false, true, 1, false, .timing, some 0⟩
     t.coil = true ∧ t.reset = false ∧ t.isOpen = true ∧ t.phase = .timing) ∧
    (⟨false, false, true, 0, true, .energised, none⟩ : TimerState).phase = .energised ∧
    (⟨false, false, true, 1, false, .paused, none⟩ : TimerState).phase = .paused ∧
    TimerState.initial.phase = .idle := by decide

/-- R142, R144: an advance past the preset stops there, one while the reset is ON is ignored, and the rise of the reset
clears a counter that is done. -/
theorem test_counter_takes_its_inputs :
    CounterState.advance 3 5 ⟨false, true, 1, false⟩ = ⟨false, true, 3, true⟩ ∧
    CounterState.advance 3 5 ⟨true, true, 0, false⟩ = ⟨true, true, 0, false⟩ ∧
    CounterState.takeInputs 3 ⟨none, some true, true⟩ ⟨false, true, 3, true⟩ = ⟨true, true, 0, false⟩ := by decide

theorem witness_CountersCountAndNothingPassesItsPreset :
    1 ≤ (setup.timer 0).preset ∧ TimerState.initial.value ≤ (setup.timer 0).preset ∧
    TimerState.initial.value < (setup.timer 0).preset ∧ 1 ≤ 1 ∧ CounterState.initial.value ≤ 1 ∧
    (CounterState.initial.done = true ↔ CounterState.initial.value = 1) ∧ CounterState.initial.reset = false ∧
    (⟨false, true, 0, false⟩ : CounterState).isOpen = true ∧ (⟨true, true, 0, false⟩ : CounterState).reset = true ∧
    station.timers.timers.length = TimerUnit.reset.timers.length ∧
    station.timers.counters[7]? = some CounterState.initial := by decide

theorem witness_InputLinesAreFiltered :
    station.field.inputs[15]? = some ⟨false, false, none⟩ ∧ (loading .header).lifecycle.watchesLines = false ∧
    station.lifecycle.watchesLines = true ∧ station.setup.filter 15 ≠ 0 ∧ station.setup.filter 0 = 0 ∧
    (withInput station 15 ⟨true, false, some 5⟩).field.inputs[15]? = some ⟨true, false, some 5⟩ ∧
    HasReached (some 5) (station.setup.filter 15) ∧ ¬ HasReached (some 4) (station.setup.filter 15) ∧
    ¬ HasReached none (station.setup.filter 0) :=
  ⟨by decide +kernel, by decide, by decide, by decide, by decide, by decide +kernel, reached_of (by decide),
    not_reached_of (by decide), not_reached_of rfl⟩

theorem witness_OutputsAreDrivenAndChecked :
    (FieldOutput.mk true true true false .latched none).phase = .latched ∧
    (FieldOutput.mk true true true false .watching none).phase ≠ .latched ∧ Lifecycle.detached ≠ .active ∧
    (OutputSetup.mk 5 true true).hold = true ∧ (OutputSetup.mk 5 true false).hold = false ∧
    (withOutput station 11 ⟨true, true, true, true, .watching, none⟩).field.outputs[11]? =
      some ⟨true, true, true, true, .watching, none⟩ ∧
    (withOutput station 11 ⟨true, true, true, false, .differing, some 5⟩).field.outputs[11]? =
      some ⟨true, true, true, false, .differing, some 5⟩ ∧
    (withOutput station 11 ⟨true, true, true, false, .settling, some 5⟩).field.outputs[11]? =
      some ⟨true, true, true, false, .settling, some 5⟩ ∧
    HasReached (some 5) (station.setup.output 11).settle ∧ ¬ HasReached (some 4) (station.setup.output 11).settle ∧
    station.field.outputs[0]? = some ⟨false, false, false, false, .off, none⟩ :=
  ⟨by decide, by decide, by decide, by decide, by decide, by decide +kernel, by decide +kernel, by decide +kernel,
    reached_of (by decide), not_reached_of (by decide), by decide +kernel⟩

/-! ### Hypotheses that are met: faults, capture, evaluator, invariants -/

theorem witness_ReportsAndRecordsAreKept :
    FaultUnit.reset.counts.length = 10 ∧ 9 < 10 ∧ FaultUnit.reset.record = none ∧
    CaptureUnit.reset.ring.length ≤ 48 ∧ { CaptureUnit.reset with mode := .armed }.mode = .armed ∧
    CaptureUnit.reset.mode ≠ .armed ∧ { CaptureUnit.reset with mode := .triggered, remaining := 1 }.remaining = 1 ∧
    CaptureUnit.reset.mode = .off := by decide

theorem witness_GatesFollowTheLifecycle :
    (parentOf setup)^[3] 1 = 0 ∧ (parentOf setup)^[3] 8 = 0 ∧ (setup.gate 8).parent ≤ 8 ∧
    stationGate .listen .none = .closed ∧ (EvalContext.mk setup .active .complete).life = .active ∧
    (∀ g ∈ Evaluator.reset.gates, g ≠ .opened) ∧ ∀ t ∈ setup.terms, ∀ n, t.target ≠ .marker n := by
  refine ⟨by decide, by decide, by decide, by decide, rfl, by decide, fun t h n => ?_⟩
  simp only [setup, List.mem_cons, List.not_mem_nil, or_false] at h
  rcases h with rfl | rfl | rfl <;> exact nofun

/-- R125: a gate that opens in the reopen mode given fires its SET term, whose result is ON, or does not. -/
theorem test_reopen_modes :
    let gated := fun (mode : ReopenMode) => EvalContext.mk
      { setup with
        gates := [⟨some ⟨false, .input 0⟩, 0, mode⟩]
        terms := [⟨[⟨false, .input 1⟩], 1, .set 181⟩] } .active .complete
    let e := { station.eval with
      src := station.eval.src.put (.input 1) true
      gates := [.opened, .closed]
      results := [true]
      remembered := [true] }
    (takeEvent (gated .fire) (.source (.input 0) true) e).requests = [⟨181, .set⟩] ∧
    (takeEvent (gated .quiet) (.source (.input 0) true) e).requests = [] := by decide +kernel

/-- A pass that touches a term in an OPEN gate. -/
theorem witness_EvaluatorFollowsItsTerms :
    let ctx : EvalContext := ⟨setup, .active, .complete⟩
    let p : PassState := ⟨{ station.eval with src := station.eval.src.put (.input 1) true }, [], [], [], [], []⟩
    (∃ l ∈ [⟨false, .input 1⟩], (l : Literal).source ∈ [Source.input 1]) ∧
    (evalPass ctx [.input 1] p).eval.gates.getD 0 .closed = .opened ∧
    (evalPass ctx [.input 1] p).requests = [⟨181, .set⟩] ∧
    p.eval.levels.contribs[0]? = some (130, false) := by
  refine ⟨⟨_, List.mem_singleton.mpr rfl, by decide⟩, by decide +kernel, by decide +kernel, by decide +kernel⟩

/-- A source that is handed anew, one that is handed again, and a state whose results agree. -/
theorem witness_EvaluatorEventsAreTakenWhole :
    let ctx : EvalContext := ⟨setup, .active, .complete⟩
    let p : PassState := ⟨{ station.eval with src := station.eval.src.put (.input 1) true }, [], [], [], [], []⟩
    station.eval.src.value (.input 1) = false ∧ (evalCascade ctx 1056 (evalPass ctx [.input 1] p)).cascade = [] ∧
    ResultsAgree setup station.eval [] [] ∧ station.eval.src.markers.length = 32 ∧
    ∀ m, ¬ Relation.TransGen (dependsOn setup) m m := by
  refine ⟨by decide, by decide +kernel, fun i t h _ => ?_, by decide, fun m path => ?_⟩
  case refine_2 =>
    obtain ⟨n, ⟨t, mem, target, -⟩, -⟩ := Relation.TransGen.head'_iff.mp path
    simp only [setup, List.mem_cons, List.not_mem_nil, or_false] at mem
    rcases mem with rfl | rfl | rfl <;> exact nomatch target
  have e : station.eval.results = setup.terms.map fun t => t.result station.eval.src := by decide +kernel
  rw [e, List.getD_eq_getElem?_getD, List.getElem?_map, h]; rfl

theorem witness_HandOffsReachTheirBlocks :
    (station.eval.levels.contribs.map Prod.fst).Nodup ∧
    (([(180, true), (4, false)] : List (Point × Bool)).map Prod.fst).Nodup ∧ 180 < station.eval.src.points.length := by
  decide +kernel

/-- R127, R128: a source change reaches the evaluator, and the request it fires the list, before the command ends. -/
theorem test_hand_offs_are_taken :
    let t := (station.post [.source (.input 1) true]).finish
    t.agenda = [] ∧ t.echoes = [] ∧ t.eval.src.value (.input 1) = true ∧
    t.asm.requests = [⟨181, .set, false⟩] := by decide +kernel

theorem witness_DecodingInvertsEncoding :
    frameOk (.entry 30 250 (List.replicate 12 (.level 175 true))) = true ∧ frameOk (.loss 1 30) = true ∧
    0 < 16 ∧ 15 < 16 ∧ (checkBits []).length = 16 ∧
    decodeFrame (encodeFrame (.loss 1 30)) = .ok (.loss 1 30) := by decide +kernel

theorem witness_CountsStayInRange :
    CountsInRange State.reset ∧ RecordsInRange State.reset ∧ SetsAscend State.reset ∧ step State.reset = .next State.reset :=
  ⟨⟨by decide, by decide, by decide, by decide⟩, ⟨by decide, by decide⟩, ⟨by decide, by decide, by decide, by decide⟩, rfl⟩

theorem witness_StandingFitsTheLifecycle : LifecycleFits station ∧ ∃ t, step station = .next t :=
  ⟨⟨by decide, by decide, by decide, by decide, by decide⟩, _, rfl⟩

theorem witness_PulsesNeverExceedTheirLimit : RequestsFit station ∧ ∃ t, step station = .next t := by
  refine ⟨⟨⟨?_, ?_, ?_⟩, ?_⟩, _, rfl⟩ <;> simp [station, listener, Assembler.reset, pulsesOf]

theorem witness_FirstFaultRecordIsKept :
    { FaultUnit.reset with record := some ⟨.namedLost, none, 0, .active⟩ }.record = some ⟨.namedLost, none, 0, .active⟩ ∧
    { station with pending := [Instr.idleReached] }.pending = [.idleReached] ∧
    Instr.idleReached ≠ .powerOnReset ∧ Instr.idleReached ≠ .resetLineAssertion := by decide

end Sys2Proof.Tests
end

/-! SUPPORT. Items, roster effects and snapshot parts at the point image (R4 to R17, R33 to R35, R101). -/

namespace Sys2Proof.Machine

/-! ### Ascending maps of stations -/

/-- R10: an entry put for one station is read back, and every other station's entry stays. -/
theorem entryOf?_putEntry {α : Type} (x y : Station) (v : α) (l : List (Station × α)) :
    entryOf? y (putEntry x v l) = if y = x then some v else entryOf? y l := by
  induction l with
  | nil => by_cases h : y = x <;> simp [putEntry, entryOf?, h, eq_comm]
  | cons e l ih =>
    obtain ⟨t, w⟩ := e
    simp only [entryOf?] at ih ⊢
    unfold putEntry
    by_cases lt : x < t
    · by_cases h : y = x <;> simp [lt, h, eq_comm]
    · by_cases eq : x = t
      · subst eq
        by_cases h : y = x <;> simp [h, eq_comm]
      · by_cases h : t = y
        · subst h; simp [lt, eq, Ne.symm eq]
        · simp [lt, eq, h, ih]

/-- R9: who stands in an ON-set after a LEVEL item of `x`. -/
theorem mem_levelOnSet {x y : Station} {on : Bool} {set : OnSet} :
    y ∈ levelOnSet x on set ↔ if y = x then on = true else y ∈ set := by
  cases on <;> by_cases h : y = x <;> simp [levelOnSet, mem_insertStation, mem_eraseStation, h]

/-- R14: loss treatment turns the station's entries into LOST-OFF. -/
theorem mem_mapLost {y z : Station} {v : Entry} {c : ContributorMap} :
    (z, v) ∈ mapLost y c ↔ if z = y then v = .lostOff ∧ ∃ w, (z, w) ∈ c else (z, v) ∈ c := by
  unfold mapLost
  rw [List.mem_map]
  constructor
  · rintro ⟨⟨t, w⟩, mem, eq⟩
    by_cases own : t = y
    · simp only [own, if_true, Prod.mk.injEq] at eq
      obtain ⟨rfl, rfl⟩ := eq
      simpa using ⟨w, own ▸ mem⟩
    · simp only [own, if_false, Prod.mk.injEq] at eq
      obtain ⟨rfl, rfl⟩ := eq
      simpa [own] using mem
  · by_cases own : z = y
    · simp only [own, if_true]
      rintro ⟨rfl, w, mem⟩
      exact ⟨(y, w), mem, by simp⟩
    · simp only [own, if_false]
      exact fun mem => ⟨(z, v), mem, by simp [own]⟩

/-! ### Lists read at one place -/

/-- A list changed at one of its places holds there what the change makes of the value read there. -/
theorem modify_eq_set_getD {α : Type} {l : List α} {i : Nat} (h : i < l.length) (f : α → α) (d : α) :
    l.modify i f = l.set i (f (l.getD i d)) := by
  rw [List.modify_eq_set_getElem?, List.getD_eq_getElem?_getD, List.getElem?_eq_getElem h]
  rfl

theorem getD_map {α β : Type} {l : List α} {i : Nat} (h : i < l.length) (f : α → β) (d : α) (e : β) :
    (l.map f).getD i e = f (l.getD i d) := by
  simp [List.getD_eq_getElem?_getD, List.getElem?_eq_getElem h]

/-! ### The classes of points (R1) -/

theorem pointClass?_any {p : Nat} (h : p < 128) : pointClass? p = some .any := by
  simp [pointClass?, h]

theorem pointClass?_all {p : Nat} (low : 128 ≤ p) (h : p < 176) : pointClass? p = some .all := by
  simp [pointClass?, h, Nat.not_lt.mpr low]

theorem pointClass?_held {p : Nat} (low : 176 ≤ p) (h : p < 224) : pointClass? p = some .held := by
  simp [pointClass?, h, Nat.not_lt.mpr low, show ¬ p < 128 by omega]

theorem pointClass?_count {p : Nat} (low : 224 ≤ p) (h : p < 256) : pointClass? p = some .count := by
  simp [pointClass?, h, Nat.not_lt.mpr low, show ¬ p < 128 by omega, show ¬ p < 176 by omega]

/-- The count-class points are 224 to 255. -/
theorem pointClass?_eq_count {p : Nat} : pointClass? p = some .count ↔ 224 ≤ p ∧ p < 256 := by
  constructor
  · unfold pointClass?
    split_ifs with any all held count
    · simp
    · simp
    · simp
    · exact fun _ => ⟨Nat.not_lt.mp held, count⟩
    · simp
  · exact fun ⟨low, h⟩ => pointClass?_count low h

/-- R4: an any-class point is ON while its ON-set has a member. -/
theorem pointValue_any (m : Image) (ws : List (Option Nat)) {p : Nat} (h : p < 128) :
    pointValue m ws p = true ↔ ∃ y, y ∈ m.onSet p := by
  rw [pointValue, pointClass?_any h]
  simp [setResolves, List.eq_nil_iff_forall_not_mem]

/-- R5: an all-class point is ON where its map has entries and each is ON. -/
theorem pointValue_all (m : Image) (ws : List (Option Nat)) {p : Nat} (low : 128 ≤ p) (h : p < 176) :
    pointValue m ws p = true ↔ m.contributors p ≠ [] ∧ ∀ e ∈ m.contributors p, e.2 = .on := by
  rw [pointValue, pointClass?_all low h]
  simp [mapResolves]

/-! ### Items (R9 to R12) -/

theorem applyItem_level_any (x : Station) (on : Bool) {m : Image} {p : Nat} (len : m.any.length = 128)
    (h : p < 128) :
    applyItem x m (.level p on) = { m with any := m.any.set p (levelOnSet x on (m.onSet p)) } := by
  simp only [applyItem, pointClass?_any h]
  rw [modify_eq_set_getD (len ▸ h) _ []]
  rfl

theorem applyItem_level_all (x : Station) (on : Bool) {m : Image} {p : Nat} (len : m.all.length = 48)
    (low : 128 ≤ p) (h : p < 176) :
    applyItem x m (.level p on) =
      { m with all := m.all.set (p - 128) (putEntry x (if on then .on else .off) (m.contributors p)) } := by
  simp only [applyItem, pointClass?_all low h]
  rw [modify_eq_set_getD (by omega) _ []]
  rfl

theorem applyItem_held (x : Station) (on : Bool) {m : Image} {p : Nat} (len : m.held.length = 48)
    (low : 176 ≤ p) (h : p < 224) :
    applyItem x m (if on then .set p else .clear p) =
      { m with held := m.held.set (p - 176) (changeHeld x on (m.heldRecord p)) } := by
  cases on <;> simp only [applyItem, pointClass?_held low h, if_true, Bool.false_eq_true, if_false] <;>
    rw [modify_eq_set_getD (by omega) _ ⟨false, none, 0⟩] <;> rfl

theorem applyItem_pulse (x : Station) (n : Nat) {m : Image} {p : Nat} (len : m.count.length = 32)
    (low : 224 ≤ p) (h : p < 256) :
    applyItem x m (.pulse p n) =
      { m with count := m.count.set (p - 224) ⟨(m.countRecord p).count + BitVec.ofNat 16 n, some x⟩ } := by
  simp only [applyItem, pointClass?_count low h, if_true]
  rw [modify_eq_set_getD (by omega) _ ⟨0, none⟩]
  rfl

/-- R10: the map of an all-class point after a LEVEL item of `x`. -/
theorem contributors_level_all (x y : Station) (on : Bool) {m : Image} {p : Nat} (len : m.all.length = 48)
    (low : 128 ≤ p) (h : p < 176) : entryOf? y ((applyItem x m (.level p on)).contributors p) =
      if y = x then some (if on then .on else .off) else entryOf? y (m.contributors p) := by
  rw [applyItem_level_all x on len low h, ← entryOf?_putEntry]
  have inside : p - 128 < m.all.length := by omega
  simp [Image.contributors, List.getD_eq_getElem?_getD, inside]

/-- Settles O21: each item by the class of its point. -/
theorem itemsChangeTheirPoint : Obligations.ItemsChangeTheirPoint := by
  intro m x p anyLen allLen heldLen countLen
  refine ⟨fun on h => ⟨applyItem_level_any x on anyLen h, fun y => mem_levelOnSet⟩,
    fun on low h => ⟨applyItem_level_all x on allLen low h, fun y => contributors_level_all x y on allLen low h⟩,
    fun ws => ⟨pointValue_any m ws, pointValue_all m ws⟩,
    fun on low h => applyItem_held x on heldLen low h,
    fun n low h => applyItem_pulse x n countLen low h⟩

/-! ### Roster effects (R14 to R17) -/

/-- A change that leaves an entry as it is leaves the roster as it is. -/
theorem Roster.update_eq_self {r : Roster} {x : Station} {f : RosterEntry → RosterEntry}
    (h : f (r.entry x) = r.entry x) : r.update x f = r := by
  rw [Roster.update_congr (g := id) h]
  unfold Roster.update
  split
  · rfl
  · exact List.modify_id ..

theorem treatIfPresent_eq (before : RosterState) (y : Station) (m : Image) :
    treatIfPresent before y m = if before = .active ∨ before = .joining then lossTreatment y m else m := by
  cases before <;> rfl

theorem onSet_map_erase (y z : Station) {m m' : Image} {q : Nat} (same : m'.any = m.any.map (eraseStation y))
    (h : q < m.any.length) : z ∈ m'.onSet q ↔ z ∈ m.onSet q ∧ z ≠ y := by
  rw [Image.onSet, same, getD_map h _ [], mem_eraseStation]
  rfl

theorem contributors_map {m m' : Image} {f : ContributorMap → ContributorMap} {q : Nat}
    (same : m'.all = m.all.map f) (len : m.all.length = 48) (low : 128 ≤ q) (h : q < 176) :
    m'.contributors q = f (m.contributors q) := by
  rw [Image.contributors, same, getD_map (by omega) _ []]
  rfl

/-- R83: a RELEASE of a station that is not LOST leaves the roster as it is. -/
theorem rosterEffect_release_void {r : Roster} {y : Station} (h : r.stateOf y ≠ .lost) (own x : Station)
    (timed : Bool) : rosterEffect own timed (.release x y) r = r :=
  Roster.update_eq_self (if_neg h)

/-- Settles O24: the frame's effect by its kind, then each treatment place by place. -/
theorem rosterFramesChangePoints : Obligations.RosterFramesChangePoints := by
  intro r m x y k p items
  refine ⟨treatIfPresent_eq _ y m, treatIfPresent_eq _ x m, rfl, rfl, rfl, rfl,
    fun q h len z => onSet_map_erase y z rfl (len ▸ h), fun q low h len z v => ?lost,
    fun q low h len z v => ?release,
    fun q h len z => onSet_map_erase y z rfl (len ▸ h), fun q low h len z v => ?withdraw,
    rfl, rfl, rfl, rfl, rfl, fun notLost own timed => rosterEffect_release_void notLost own x timed,
    fun n ws q low h => pointValue_all n ws low h⟩
  case lost => rw [contributors_map (f := mapLost y) rfl len low h]; exact mem_mapLost
  case release =>
    rw [contributors_map (m' := releaseTreatment y m) rfl len low h]
    simp only [List.mem_filter, Bool.not_eq_true', Bool.and_eq_false_iff, decide_eq_false_iff_not]
    tauto
  case withdraw =>
    rw [contributors_map (m' := withdrawStation y m) (f := eraseEntry y) rfl len low h]
    simp [eraseEntry]

/-! ### The parts of a snapshot (R33 to R35, R101) -/

/-- The eight values from place `a` on. -/
theorem take_drop_eq_map_getD {α : Type} {l : List α} {a : Nat} (h : a + 8 ≤ l.length) (d : α) :
    (l.drop a).take 8 = (List.range 8).map fun i => l.getD (a + i) d := by
  refine List.ext_getElem (by simp; omega) fun i hi hj => ?_
  simp only [List.length_map, List.length_range] at hj
  have inside : a + i < l.length := by omega
  simp [List.getD_eq_getElem?_getD, inside]

/-- Pieces of eight, put together again. -/
theorem flatMap_pieces {α : Type} (l : List α) (n : Nat) :
    ((List.range n).flatMap fun k => (l.drop (8 * k)).take 8) = l.take (8 * n) := by
  induction n with
  | zero => simp
  | succ n ih =>
    rw [List.range_succ, List.flatMap_append, ih, List.flatMap_singleton, Nat.mul_succ, List.take_add]

/-- The part numbers, by the class that each part carries. -/
theorem range_parts : List.range 33 = 0 :: ((List.range 16).map (· + 1) ++ ((List.range 6).map (· + 17) ++
    ((List.range 6).map (· + 23) ++ (List.range 4).map (· + 29)))) := by decide

section

variable (sn : Snapshot)

theorem snapshotPart_any {k : Nat} (h : k < 16) :
    snapshotPart sn (k + 1) = .any ((sn.points.any.drop (8 * k)).take 8) := by
  simp [snapshotPart, partShape?, show k + 1 ≤ 16 by omega]

theorem snapshotPart_all {k : Nat} (h : k < 6) :
    snapshotPart sn (k + 17) = .all ((sn.points.all.drop (8 * k)).take 8) := by
  simp [snapshotPart, partShape?, show ¬ k + 17 ≤ 16 by omega, show k + 17 ≤ 22 by omega,
    show 8 * (k + 16) - 128 = 8 * k by omega]

theorem snapshotPart_held {k : Nat} (h : k < 6) :
    snapshotPart sn (k + 23) = .held ((sn.points.held.drop (8 * k)).take 8) := by
  simp [snapshotPart, partShape?, show ¬ k + 23 ≤ 16 by omega, show ¬ k + 23 ≤ 22 by omega,
    show k + 23 ≤ 28 by omega, show 8 * (k + 22) - 176 = 8 * k by omega]

theorem snapshotPart_count {k : Nat} (h : k < 4) :
    snapshotPart sn (k + 29) = .count ((sn.points.count.drop (8 * k)).take 8) := by
  simp [snapshotPart, partShape?, show ¬ k + 29 ≤ 16 by omega, show ¬ k + 29 ≤ 22 by omega,
    show ¬ k + 29 ≤ 28 by omega, show k + 29 ≤ 32 by omega, show 8 * (k + 28) - 224 = 8 * k by omega]

/-- What a reader of parts takes from a snapshot's parts, class by class. -/
theorem flatMap_parts {α : Type} (read : PartBody → List α) (roster : read (.roster sn.roster) = []) :
    ((List.range 33).map (snapshotPart sn)).flatMap read =
      ((List.range 16).flatMap fun k => read (.any ((sn.points.any.drop (8 * k)).take 8))) ++
      (((List.range 6).flatMap fun k => read (.all ((sn.points.all.drop (8 * k)).take 8))) ++
      (((List.range 6).flatMap fun k => read (.held ((sn.points.held.drop (8 * k)).take 8))) ++
      ((List.range 4).flatMap fun k => read (.count ((sn.points.count.drop (8 * k)).take 8))))) := by
  have congr : ∀ {n : Nat} {f g : Nat → PartBody}, (∀ k, k < n → f k = g k) →
      ((List.range n).flatMap fun k => read (f k)) = (List.range n).flatMap fun k => read (g k) :=
    fun h => List.flatMap_congr fun k hk => by rw [h k (List.mem_range.mp hk)]
  have first : read (snapshotPart sn 0) = [] := roster
  rw [range_parts]
  simp only [List.map_cons, List.flatMap_cons, first, List.nil_append, List.map_append, List.flatMap_append,
    List.map_map, List.flatMap_map, Function.comp]
  rw [congr fun k h => snapshotPart_any sn h, congr fun k h => snapshotPart_all sn h,
    congr fun k h => snapshotPart_held sn h, congr fun k h => snapshotPart_count sn h]

/-- R22: the 33 parts of a snapshot give back its image. -/
theorem imageOfParts_snapshot (anyLen : sn.points.any.length = 128) (allLen : sn.points.all.length = 48)
    (heldLen : sn.points.held.length = 48) (countLen : sn.points.count.length = 32) :
    imageOfParts ((List.range 33).map (snapshotPart sn)) = sn.points := by
  have none : ∀ {α : Type} (n : Nat), ((List.range n).flatMap fun _ => ([] : List α)) = [] := by simp
  unfold imageOfParts
  rw [flatMap_parts sn _ rfl, flatMap_parts sn _ rfl, flatMap_parts sn _ rfl, flatMap_parts sn _ rfl]
  simp only [none, flatMap_pieces, List.append_nil, List.nil_append]
  rw [List.take_of_length_le (by omega), List.take_of_length_le (by omega), List.take_of_length_le (by omega),
    List.take_of_length_le (by omega)]

/-- R92: part 0 of a snapshot gives back its roster. -/
theorem rosterOfParts_snapshot :
    rosterOfParts ((List.range 33).map (snapshotPart sn)) = sn.roster.map fun e => ⟨e.1, e.2, none, none⟩ := by
  rw [range_parts]
  rfl

end

/-- Settles O35: each part by its class, and the parts put together. -/
theorem snapshotPartsGiveBackTheImage : Obligations.SnapshotPartsGiveBackTheImage := by
  refine ⟨fun sn anyLen allLen heldLen countLen => ?_, fun r => rfl, fun s sn slot snap => ?_⟩
  · refine ⟨rfl, fun k low high => ?_, fun k low high => ?_, fun k low high => ?_, fun k low high => ?_,
      imageOfParts_snapshot sn anyLen allLen heldLen countLen, rosterOfParts_snapshot sn⟩
    · obtain ⟨j, rfl⟩ : ∃ j, k = j + 1 := ⟨k - 1, by omega⟩
      rw [snapshotPart_any sn (by omega), take_drop_eq_map_getD (by omega) [], List.map_map]
      rfl
    · obtain ⟨j, rfl⟩ : ∃ j, k = j + 17 := ⟨k - 17, by omega⟩
      rw [snapshotPart_all sn (by omega), take_drop_eq_map_getD (by omega) [], List.map_map]
      exact congrArg PartBody.all (List.map_congr_left fun i _ =>
        congrArg (sn.points.all.getD · []) (by dsimp only; omega))
    · obtain ⟨j, rfl⟩ : ∃ j, k = j + 23 := ⟨k - 23, by omega⟩
      rw [snapshotPart_held sn (by omega), take_drop_eq_map_getD (by omega) ⟨false, none, 0⟩, List.map_map]
      exact congrArg PartBody.held (List.map_congr_left fun i _ =>
        congrArg (sn.points.held.getD · _) (by dsimp only; omega))
    · obtain ⟨j, rfl⟩ : ∃ j, k = j + 29 := ⟨k - 29, by omega⟩
      rw [snapshotPart_count sn (by omega), take_drop_eq_map_getD (by omega) ⟨0, none⟩, List.map_map]
      exact congrArg PartBody.count (List.map_congr_left fun i _ =>
        congrArg (sn.points.count.getD · _) (by dsimp only; omega))
  · simp [partFrame?, slot, snap]

end Sys2Proof.Machine

/-! SUPPORT. Timers and counters: their presets, the done states they hand on, and the expiries of pulse windows and
units (R13, R134 to R145). -/

namespace Sys2Proof.Machine

/-! ### Done states that are handed on (R134) -/

/-- What a list gives by values and places, read place by place. -/
theorem filterMap_zipIdx {α β : Type} (l : List α) (d : α) (f : α × Nat → Option β) :
    l.zipIdx.filterMap f = (List.range l.length).filterMap fun n => f (l.getD n d, n) := by
  have places : l.zipIdx = (List.range l.length).map fun n => (l.getD n d, n) := by
    refine List.ext_getElem (by simp) fun i hi hj => ?_
    simp only [List.length_zipIdx] at hi
    simp [List.getD_eq_getElem?_getD, hi]
  rw [places, List.filterMap_map]
  rfl

/-- R134: every done state that differs after an event is handed on once, timers first. -/
theorem doneChanges_eq {a b : TimerUnit} (timers : a.timers.length = b.timers.length)
    (counters : a.counters.length = b.counters.length) :
    doneChanges a b =
      ((List.range a.timers.length).filterMap fun n =>
        if (a.timers.getD n TimerState.initial).done = (b.timers.getD n TimerState.initial).done then none
        else some (.source (.timer n) (b.timers.getD n TimerState.initial).done)) ++
      (List.range a.counters.length).filterMap fun n =>
        if (a.counters.getD n CounterState.initial).done = (b.counters.getD n CounterState.initial).done then none
        else some (.source (.counter n) (b.counters.getD n CounterState.initial).done) := by
  unfold doneChanges
  rw [filterMap_zipIdx _ TimerState.initial, filterMap_zipIdx _ CounterState.initial, ← timers, ← counters]
  congr 1
  · refine List.filterMap_congr fun n hn => ?_
    simp [List.getD_eq_getElem?_getD, List.mem_range.mp hn]
  · refine List.filterMap_congr fun n hn => ?_
    simp [List.getD_eq_getElem?_getD, List.mem_range.mp hn]

/-- Where one place alone has something to give, that is all there is. -/
theorem filterMap_range_single {α : Type} {f : Nat → Option α} {n : Nat} :
    ∀ {k : Nat}, n < k → (∀ m, m ≠ n → f m = none) → (List.range k).filterMap f = (f n).toList
  | k + 1, h, others => by
    rw [List.range_succ, List.filterMap_append]
    by_cases last : n = k
    · subst last
      have before : (List.range n).filterMap f = [] := by
        simp only [List.filterMap_eq_nil_iff, List.mem_range]
        exact fun m hm => others m (Nat.ne_of_lt hm)
      rw [before]
      cases hn : f n <;> simp [hn]
    · rw [filterMap_range_single (by omega) others]
      simp [others k (Ne.symm last)]

/-- R134: the done change of an event that changes one timer. -/
theorem doneChanges_set {u : TimerUnit} {n : Nat} {t : TimerState} (h : u.timers[n]? = some t) (t' : TimerState) :
    doneChanges u { u with timers := u.timers.set n t' } =
      if t.done = t'.done then [] else [.source (.timer n) t'.done] := by
  obtain ⟨inside, at_n⟩ := List.getElem?_eq_some_iff.mp h
  rw [doneChanges_eq (a := u) (b := ⟨u.timers.set n t', u.counters⟩) (by simp) rfl,
    filterMap_range_single inside fun m hm => ?_]
  · by_cases same : t.done = t'.done <;> simp [List.getD_eq_getElem?_getD, inside, at_n, same]
  · simp [List.getD_eq_getElem?_getD, List.getElem?_set_ne (Ne.symm hm)]

/-- R134: the end of an event that has changed one timer. -/
theorem putTimers_set {s : State} {n : Nat} {t : TimerState} (h : s.timers.timers[n]? = some t) (t' : TimerState) :
    s.putTimers { s.timers with timers := s.timers.timers.set n t' } =
      { s with
        timers := { s.timers with timers := s.timers.timers.set n t' }
        echoes := s.echoes ++ if t.done = t'.done then [] else [.source (.timer n) t'.done] } := by
  rw [State.putTimers, doneChanges_set h]

/-! ### Presets (R134, R142) -/

/-- R134: a timer value within its preset, which an ELAPSED timer alone holds. -/
def TimerState.WithinPreset (preset : Nat) (t : TimerState) : Prop :=
  t.value ≤ preset ∧ (t.phase ≠ .elapsed → t.value < preset)

/-- R142: a counter within its preset, done exactly there. -/
def CounterState.WithinPreset (preset : Nat) (c : CounterState) : Prop :=
  c.value ≤ preset ∧ (c.done = true ↔ c.value = preset)

section
variable {preset : Nat} {t : TimerState}

/-- A timer that has not elapsed is within its preset where its value is below it. -/
theorem TimerState.WithinPreset.of_lt (h : t.value < preset) : t.WithinPreset preset := ⟨h.le, fun _ => h⟩

theorem settleDelayOn_within (pos : 1 ≤ preset) (h : t.WithinPreset preset) :
    t.settleDelayOn.WithinPreset preset := by
  unfold TimerState.settleDelayOn
  dsimp only
  split
  · split
    · exact .of_lt pos
    · exact h
  · exact .of_lt pos

theorem settleHeld_within (pos : 1 ≤ preset) (h : t.WithinPreset preset) : t.settleHeld.WithinPreset preset := by
  have below : t.phase ≠ .elapsed → t.value < preset := h.2
  unfold TimerState.settleHeld
  split
  · exact .of_lt pos
  · split
    · split
      · exact .of_lt (below (by simp_all))
      · exact .of_lt (below (by simp_all))
      all_goals exact h
    · split
      · exact .of_lt (below (by simp_all))
      all_goals exact h

theorem settleDelayOff_within (pos : 1 ≤ preset) (h : t.WithinPreset preset) :
    t.settleDelayOff.WithinPreset preset := by
  unfold TimerState.settleDelayOff
  split
  · exact .of_lt pos
  · split
    · split
      · exact h
      · exact .of_lt pos
    · split
      · exact .of_lt pos
      all_goals exact h

theorem settle_within (kind : TimerKind) (pos : 1 ≤ preset) (h : t.WithinPreset preset) :
    (t.settle kind).WithinPreset preset := by
  cases kind
  · exact settleDelayOn_within pos h
  · exact settleHeld_within pos h
  · exact settleDelayOff_within pos h

/-- R134: no hand-off of an evaluator event takes a timer past its preset. -/
theorem takeInputs_within (kind : TimerKind) (inputs : TimerInputs) (pos : 1 ≤ preset) (h : t.WithinPreset preset) :
    (TimerState.takeInputs kind inputs t).WithinPreset preset := by
  obtain ⟨standing, coil, reset⟩ := inputs
  have first : TimerState.WithinPreset preset (match standing with
      | some v => TimerState.settle kind { t with isOpen := v }
      | none => t) := by
    cases standing
    · exact h
    · exact settle_within kind pos h
  have second : ∀ u : TimerState, u.WithinPreset preset → TimerState.WithinPreset preset (match coil with
      | some v => TimerState.settle kind { u with coil := v }
      | none => u) := fun u hu => by
    cases coil
    · exact hu
    · exact settle_within kind pos hu
  unfold TimerState.takeInputs
  cases reset
  · exact second _ first
  · exact settle_within kind pos (second _ first)

/-- R136: a unit ends at the preset at most, and there the timer is ELAPSED. -/
theorem unitExpiry_within {setup : TimerSetup} (h : t.WithinPreset setup.preset) :
    (t.unitExpiry setup).WithinPreset setup.preset := by
  unfold TimerState.unitExpiry
  split
  · rename_i runs
    simp only [Bool.and_eq_true, decide_eq_true_eq] at runs
    have below : t.value < setup.preset := h.2 (by simp [runs.1])
    split
    · exact ⟨le_rfl, fun elapsed => absurd rfl elapsed⟩
    · rename_i more
      exact .of_lt (Nat.lt_of_le_of_ne below more)
  · exact h

end

/-! ### Counters (R142 to R145) -/

section
variable {preset k : Nat} {c : CounterState}

/-- R142: an advance that the reset, the gate or the done state stops. -/
theorem advance_ignored (h : c.reset = true ∨ c.isOpen = false ∨ c.done = true) : c.advance preset k = c := by
  rcases h with h | h | h <;> simp [CounterState.advance, h]

/-- R142: an advance that counts. -/
theorem advance_counts (reset : c.reset = false) (isOpen : c.isOpen = true) (done : c.done = false) :
    c.advance preset k =
      if c.value + k < preset then { c with value := c.value + k } else { c with value := preset, done := true } := by
  simp [CounterState.advance, reset, isOpen, done]

theorem advance_within (h : c.WithinPreset preset) : (c.advance preset k).WithinPreset preset := by
  unfold CounterState.advance
  split
  · exact h
  · rename_i goes
    simp only [Bool.or_eq_true, not_or, Bool.not_eq_true] at goes
    split
    · rename_i below
      exact ⟨below.le, by simp [goes.2, below.ne]⟩
    · exact ⟨le_rfl, by simp⟩

/-- R142: a counter that takes an advance counts up to its preset and no further. -/
theorem advance_value (h : c.WithinPreset preset) (reset : c.reset = false) (isOpen : c.isOpen = true) :
    (c.advance preset k).value = min preset (c.value + k) := by
  cases done : c.done with
  | true =>
    rw [advance_ignored (.inr (.inr done)), h.2.mp done]
    omega
  | false =>
    rw [advance_counts reset isOpen done]
    split
    · dsimp only; omega
    · dsimp only; omega

/-- R144: the rise of its reset makes a counter's value 0, below its preset. -/
theorem putReset_within (on : Bool) (pos : 1 ≤ preset) (h : c.WithinPreset preset) :
    (c.putReset on).WithinPreset preset := by
  cases on
  · exact h
  · exact ⟨Nat.zero_le _, by simp [CounterState.putReset]; omega⟩

theorem counterTakeInputs_within (inputs : CounterInputs) (pos : 1 ≤ preset) (h : c.WithinPreset preset) :
    (CounterState.takeInputs preset inputs c).WithinPreset preset := by
  obtain ⟨standing, reset, counted⟩ := inputs
  have first : CounterState.WithinPreset preset (match standing with
      | some v => { c with isOpen := v }
      | none => c) := by
    cases standing <;> exact h
  have second : ∀ d : CounterState, d.WithinPreset preset → CounterState.WithinPreset preset (match reset with
      | some v => d.putReset v
      | none => d) := fun d hd => by
    cases reset
    · exact hd
    · exact putReset_within _ pos hd
  unfold CounterState.takeInputs
  cases counted
  · exact second _ first
  · exact advance_within (second _ first)

end

/-- Settles O47: the presets by every operation of the unit, then each operation case by case. -/
theorem countersCountAndNothingPassesItsPreset : Obligations.CountersCountAndNothingPassesItsPreset := by
  refine ⟨fun setup t h pos within => ⟨takeInputs_within setup.kind h pos within, unitExpiry_within within⟩,
    fun preset k c h pos within =>
      ⟨counterTakeInputs_within h pos within, advance_within within, advance_value within⟩,
    fun preset k h c => ⟨advance_ignored, advance_counts, ?_⟩, fun s p n => ⟨rfl, rfl, ?_, fun i c hc => ?_⟩,
    fun a b timers counters => doneChanges_eq timers counters⟩
  · obtain ⟨standing, reset, counted⟩ := h
    rcases reset with _ | _ | _ <;> rfl
  · simp [State.countPulse]
  · simp [State.countPulse, hc]

/-! ### Expiries (R13, R136) -/

/-- R13: the expiry of a window that runs out while the image is COMPLETE. -/
theorem closeWindow_complete {s : State} {p : Nat} (low : 224 ≤ p) (high : p < 256)
    (runs : s.image.windows.getD (p - 224) none ≠ none) (complete : s.image.standing = .complete) :
    s.closeWindow p =
      { s with
        image := { s.image with windows := s.image.windows.set (p - 224) none }
        agenda := s.agenda ++ [.pointsApplied [(p, false)], .source (.point p) false] } := by
  have flag : s.image.termVisible p = true := by
    simpa [ImageBlock.termVisible, complete, pointValue, pointClass?_count low high, Option.isSome_iff_ne_none]
      using runs
  rw [State.closeWindow, if_pos flag]
  rfl

theorem reached_of_hasReached {timer : Option Nat} {limit : Nat} (h : HasReached timer limit) :
    reached timer limit = true := reached_iff.mpr h

theorem reached_of_not_hasReached {timer : Option Nat} {limit : Nat} (h : ¬ HasReached timer limit) :
    reached timer limit = false := by
  rw [← Bool.not_eq_true, reached_iff]
  exact h

/-- R136: the answer to a unit expiry, where timer `n` stands in the unit. -/
theorem exec_unitExpiry {s : State} {n : Fin 16} {t : TimerState} (h : s.timers.timers[n.val]? = some t) :
    exec (.unitExpiry n) s = State.answer
      { s with
        timers := { s.timers with timers := s.timers.timers.set n.val (t.unitExpiry (s.setup.timer n.val)) }
        echoes := s.echoes ++ if t.done = (t.unitExpiry (s.setup.timer n.val)).done then []
          else [.source (.timer n.val) (t.unitExpiry (s.setup.timer n.val)).done] } := by
  obtain ⟨inside, -⟩ := List.getElem?_eq_some_iff.mp h
  rw [← putTimers_set h]
  show execUnitExpiry n s = _
  rw [execUnitExpiry, modify_eq_set_getD inside _ TimerState.initial, List.getD_eq_getElem?_getD, h]
  rfl

/-- R136: a unit that ends before the preset. -/
theorem unitExpiry_counts {setup : TimerSetup} {t : TimerState} (timing : t.phase = .timing)
    (due : reached t.clock setup.base = true) (more : t.value + 1 ≠ setup.preset) :
    t.unitExpiry setup = { t with value := t.value + 1, clock := some 0 } := by
  simp [TimerState.unitExpiry, timing, due, more]

/-- R136: the unit that ends at the preset. -/
theorem unitExpiry_elapses {setup : TimerSetup} {t : TimerState} (timing : t.phase = .timing)
    (due : reached t.clock setup.base = true) (last : t.value + 1 = setup.preset) :
    t.unitExpiry setup =
      { t with value := setup.preset, phase := .elapsed, done := setup.kind ≠ .delayOff, clock := none } := by
  simp [TimerState.unitExpiry, timing, due, last]

/-- R136: a unit that does not run, or has not reached its base, does not expire. -/
theorem unitExpiry_stale {setup : TimerSetup} {t : TimerState}
    (h : t.phase ≠ .timing ∨ reached t.clock setup.base = false) : t.unitExpiry setup = t := by
  rcases h with h | h <;> simp [TimerState.unitExpiry, h]

/-- Settles O45: the window's expiry and its stale forms, then the unit's. -/
theorem windowAndUnitExpiriesAct : Obligations.WindowAndUnitExpiriesAct := by
  intro s p n t
  refine ⟨fun low high due complete => ?_, fun stale => ?_, fun h => ⟨fun timing due more => ?_,
    fun timing due last done => ?_, fun stale => ?_⟩⟩
  · have runs : s.image.windows.getD (p - 224) none ≠ none := by
      obtain ⟨v, hv, -⟩ := due
      rw [hv]; simp
    have acts : exec (.pulseWindowExpiry p) s = (s.closeWindow p).answer := by
      show execPulseWindowExpiry p s = _
      rw [execPulseWindowExpiry, if_pos]
      rw [pointClass?_count low high]
      exact reached_of_hasReached due
    rw [acts, closeWindow_complete low high runs complete]
    exact answer_settlesBy _
  · have acts : exec (.pulseWindowExpiry p) s = s.answer := by
      show execPulseWindowExpiry p s = _
      rw [execPulseWindowExpiry, if_neg]
      simp only [Bool.and_eq_true, decide_eq_true_eq, pointClass?_eq_count]
      rintro ⟨⟨low, high⟩, due⟩
      rcases stale with stale | stale | stale
      · exact Nat.not_lt.mpr low stale
      · exact Nat.not_le.mpr high stale
      · exact stale (reached_iff.mp due)
    rw [acts]
    exact answer_settles s
  · rw [exec_unitExpiry h, unitExpiry_counts timing (reached_of_hasReached due) more]
    simpa using answer_settles _
  · rw [exec_unitExpiry h, unitExpiry_elapses timing (reached_of_hasReached due) last]
    rw [if_neg]
    · exact answer_settlesBy _
    · by_cases kind : (s.setup.timer n.val).kind = .delayOff <;> simp [kind] at done ⊢ <;> simp [done]
  · have same : t.unitExpiry (s.setup.timer n.val) = t := unitExpiry_stale (stale.imp_right reached_of_not_hasReached)
    have put : s.timers.timers.set n.val t = s.timers.timers := by
      obtain ⟨inside, rfl⟩ := List.getElem?_eq_some_iff.mp h
      exact List.set_getElem_self inside
    rw [exec_unitExpiry h, same, put]
    simpa using answer_settles s

end Sys2Proof.Machine

/-! SUPPORT. What the respondent's part of a commit leaves as it is, and what the commit of an accepted frame hands on
(R18 to R20, R89, R90, R100 to R102, R161). -/

namespace Sys2Proof.Machine

/-! ### The respondent (R100 to R102, R106) -/

/-- `t` differs from `s` at most in the snapshot, the respondent slot, the joiners owed a BUSY, and the mark of the
frame in flight. -/
def RespondOnly (s t : State) : Prop :=
  FlightKept s t ∧
  t = { s with
    commit := { s.commit with flight := t.commit.flight }
    join := { s.join with snapshot := t.join.snapshot }
    asm := { s.asm with partSlot := t.asm.partSlot, busySet := t.asm.busySet } }

theorem RespondOnly.refl (s : State) : RespondOnly s s := ⟨FlightKept.refl s, rfl⟩

theorem RespondOnly.trans {a b c : State} (h : RespondOnly a b) (k : RespondOnly b c) : RespondOnly a c := by
  obtain ⟨keptAB, eqB⟩ := h
  obtain ⟨keptBC, eqC⟩ := k
  rw [eqB] at eqC
  exact ⟨keptAB.trans keptBC, eqC⟩

theorem RespondOnly.of (s : State) (sn : Option Snapshot) (part : Bool) (busy : List Station) :
    RespondOnly s { s with
      join := { s.join with snapshot := sn }, asm := { s.asm with partSlot := part, busySet := busy } } :=
  ⟨FlightKept.of rfl, rfl⟩

theorem dropSnapshotFor_only (s : State) (j : Station) : RespondOnly s (s.dropSnapshotFor j) := by
  obtain ⟨kept, fl, eq⟩ := dropSnapshotFor_eq s j
  exact ⟨kept, by rw [eq]⟩

theorem withdrawBusy_only (s : State) (j : Station) : RespondOnly s (s.withdrawBusy j) := by
  obtain ⟨kept, fl, eq⟩ := withdrawBusy_eq s j
  exact ⟨kept, by rw [eq]⟩

/-- R100, R106: what this station owes the sender of a JOIN. -/
theorem respondToJoin_only (s : State) (j named : Station) : RespondOnly s (s.respondToJoin j named) := by
  have dropped := (dropSnapshotFor_only s j).trans (withdrawBusy_only _ j)
  unfold State.respondToJoin
  dsimp only
  split
  · split
    · exact dropped.trans (.of _ _ _ _)
    · exact dropped.trans (.of _ _ _ _)
  · exact dropped

/-- R100, R102, R106: this station as respondent, at any accepted frame. -/
theorem respond_only (s : State) (before : Roster) (f : Frame) : RespondOnly s (s.respond before f) := by
  unfold State.respond
  split
  · split
    · exact respondToJoin_only s _ _
    · exact .refl s
  · split
    · exact (dropSnapshotFor_only s _).trans (withdrawBusy_only _ _)
    · exact (dropSnapshotFor_only s _).trans (withdrawBusy_only _ _)
    all_goals exact .refl s
  · exact dropSnapshotFor_only s _
  · exact .refl s

/-- R165, R169: the service unit, at any frame but a request. -/
theorem serve_only (s : State) (before : Roster) {f : Frame} (h : ∀ x y tag q, f ≠ .svcReq x y tag q) :
    ServiceOnly s (s.serve before f) := by
  unfold State.serve
  split
  · exact absurd rfl (h _ _ _ _)
  · split
    · split
      · exact requesterLeft_only s _
      · exact .refl s
    · exact .refl s

/-! ### The agenda of a commit (R54) -/

theorem applyLiveFrame_agenda (s : State) (f : Frame) : (s.applyLiveFrame f).agenda = s.agenda := by
  unfold State.applyLiveFrame
  dsimp only
  split <;> split <;> rfl

theorem respond_agenda (s : State) (before : Roster) (f : Frame) : (s.respond before f).agenda = s.agenda := by
  rw [(respond_only s before f).2]

/-- What a commit hands on, with the state after it named. -/
theorem liveHandOffs_eq (s before : State) (f : Frame) :
    s.liveHandOffs before f =
      handedOn before f (decide (before.lifecycle = .active) && !s.isolatedSince before.roster) s.image s.roster := by
  unfold State.liveHandOffs handedOn
  simp

/-- R18 to R20, R54: the hand-offs of an accepted frame. -/
theorem takeLiveFrame_agenda (s : State) (f : Frame) :
    (s.takeLiveFrame f).agenda = s.agenda ++ handedOn s f
      (decide (s.lifecycle = .active) && !(s.takeLiveFrame f).isolatedSince s.roster)
      (s.takeLiveFrame f).image (s.takeLiveFrame f).roster := by
  unfold State.takeLiveFrame
  dsimp only
  rw [liveHandOffs_eq, State.post_agenda, (serve_keepsLink _ _ _).agenda, respond_agenda, applyLiveFrame_agenda]
  rfl

/-! ### Changed points (R18) -/

/-- R18: the points by their first appearance: each point named stands once, in the order of its first place. -/
theorem firstAppearances_spec (items : List Item) :
    (∀ p, p ∈ firstAppearances items ↔ p ∈ items.map itemPoint) ∧
    (firstAppearances items).Pairwise fun p q =>
      (items.map itemPoint).idxOf p < (items.map itemPoint).idxOf q := by
  unfold firstAppearances
  generalize items.map itemPoint = named
  induction named using List.reverseRecOn with
  | nil => simp
  | append_singleton named x ih =>
    obtain ⟨mem, order⟩ := ih
    simp only [List.foldl_append, List.foldl_cons, List.foldl_nil]
    generalize named.foldl (fun seen p => if seen.contains p then seen else seen ++ [p]) [] = seen at mem order ⊢
    have kept : ∀ p ∈ seen, (named ++ [x]).idxOf p = named.idxOf p := fun p hp =>
      List.idxOf_append_of_mem ((mem p).mp hp)
    have order' : seen.Pairwise fun p q => (named ++ [x]).idxOf p < (named ++ [x]).idxOf q := by
      refine order.imp_of_mem fun hp hq h => ?_
      rw [kept _ hp, kept _ hq]
      exact h
    by_cases again : x ∈ seen
    · rw [if_pos (by simpa using again)]
      refine ⟨fun p => ?_, order'⟩
      rw [List.mem_append, List.mem_singleton, ← mem]
      exact ⟨.inl, fun h => h.elim id fun e => e ▸ again⟩
    · rw [if_neg (by simpa using again)]
      refine ⟨fun p => by simp [mem], List.pairwise_append.mpr ⟨order', List.pairwise_singleton .., ?_⟩⟩
      intro p hp q hq
      rw [List.mem_singleton.mp hq, kept p hp, List.idxOf_append_of_notMem fun h => again ((mem x).mpr h)]
      exact Nat.lt_add_right _ (List.idxOf_lt_length_of_mem ((mem p).mp hp))

/-- R1, R2: only the points 0 to 255 are ever visible to terms. -/
theorem termVisible_lt {b : ImageBlock} {p : Nat} (h : b.termVisible p = true) : p < 256 := by
  by_contra out
  have none : pointClass? p = .none := by
    simp [pointClass?, show ¬ p < 128 by omega, show ¬ p < 176 by omega, show ¬ p < 224 by omega, out]
  simp [ImageBlock.termVisible, pointValue, none] at h

/-- The order in which R18 hands changed points: those that the items name, by first appearance, then the others. -/
theorem changedPoints_order (items : List Item) :
    (firstAppearances items ++ (List.range 256).filter fun p => !(firstAppearances items).contains p).Pairwise
      fun p q => (p ∈ items.map itemPoint ∧ q ∉ items.map itemPoint) ∨
        (p ∈ items.map itemPoint ∧ q ∈ items.map itemPoint ∧
          (items.map itemPoint).idxOf p < (items.map itemPoint).idxOf q) ∨
        (p ∉ items.map itemPoint ∧ q ∉ items.map itemPoint ∧ p < q) := by
  obtain ⟨mem, order⟩ := firstAppearances_spec items
  have other : ∀ {p}, (p ∈ (List.range 256).filter fun p => !(firstAppearances items).contains p) →
      p ∉ items.map itemPoint := fun hp => by
    rw [List.mem_filter] at hp
    rw [← mem]
    simpa using hp.2
  refine List.pairwise_append.mpr ⟨?_, ?_, fun p hp q hq => .inl ⟨(mem p).mp hp, other hq⟩⟩
  · exact order.imp_of_mem fun hp hq h => .inr (.inl ⟨(mem _).mp hp, (mem _).mp hq, h⟩)
  · exact (List.pairwise_lt_range.filter _).imp_of_mem fun hp hq h => .inr (.inr ⟨other hp, other hq, h⟩)

/-- What stands first in the pairs that a filter makes of a list is what it keeps. -/
theorem map_fst_filterMap {α β : Type} (l : List α) (keep : α → Prop) [DecidablePred keep] (v : α → β) :
    (l.filterMap fun a => if keep a then none else some (a, v a)).map Prod.fst =
      l.filter fun a => !decide (keep a) := by
  induction l with
  | nil => rfl
  | cons a l ih => by_cases h : keep a <;> simp [h, ih]

theorem mem_changedPoints (b a : ImageBlock) (f : Frame) (p : Point) (v : Bool) :
    (p, v) ∈ changedPoints b a f ↔ b.termVisible p ≠ a.termVisible p ∧ v = a.termVisible p := by
  obtain ⟨named, -⟩ := firstAppearances_spec (frameItems f)
  simp only [changedPoints, List.mem_filterMap, List.mem_append, List.mem_filter, List.mem_range]
  constructor
  · rintro ⟨q, -, eq⟩
    split at eq
    · simp at eq
    · rename_i differs
      simp only [Option.some.injEq, Prod.mk.injEq] at eq
      obtain ⟨rfl, rfl⟩ := eq
      exact ⟨differs, rfl⟩
  · rintro ⟨differs, rfl⟩
    refine ⟨p, ?_, by rw [if_neg differs]⟩
    have small : p < 256 := by
      cases hb : b.termVisible p with
      | true => exact termVisible_lt hb
      | false => exact termVisible_lt (b := a) (by simpa [hb] using differs)
    by_cases h : p ∈ firstAppearances (frameItems f)
    · exact .inl h
    · exact .inr ⟨small, by simpa using h⟩

theorem handPoints_eq (changes : List (Point × Bool)) : handPoints changes =
    if changes = [] then [] else .pointsApplied changes :: changes.map fun c => .source (.point c.1) c.2 := by
  cases changes <;> rfl

theorem changedPoints_pairwise (b a : ImageBlock) (f : Frame) :
    ((changedPoints b a f).map Prod.fst).Pairwise fun p q =>
      let named := (frameItems f).map itemPoint
      (p ∈ named ∧ q ∉ named) ∨ (p ∈ named ∧ q ∈ named ∧ named.idxOf p < named.idxOf q) ∨
        (p ∉ named ∧ q ∉ named ∧ p < q) := by
  rw [changedPoints, map_fst_filterMap]
  exact (changedPoints_order (frameItems f)).filter _

/-! ### Stations (R90) -/

theorem isStation_iff {y : Nat} : isStation y = true ↔ 1 ≤ y ∧ y ≤ 30 := by simp [isStation]

theorem mem_allStations {y : Nat} : y ∈ allStations ↔ isStation y = true := by
  rw [isStation_iff, allStations, List.mem_map]
  simp only [List.mem_range]
  exact ⟨by rintro ⟨i, h, rfl⟩; omega, fun h => ⟨y - 1, by omega, by omega⟩⟩

theorem allStations_pairwise : allStations.Pairwise (· < ·) := by decide

/-- R90: the stations that have become or ceased to be ACTIVE, ascending. -/
theorem peerChanges_spec (r r' : Roster) : ∃ changes : List (Station × Bool),
    peerChanges r r' = changes.map (fun c => .source (.peer c.1) c.2) ∧
    (∀ y on, (y, on) ∈ changes ↔ isStation y = true ∧
      (on = true ↔ r'.stateOf y = .active) ∧ (on = true ↔ r.stateOf y ≠ .active)) ∧
    (changes.map Prod.fst).Pairwise (· < ·) := by
  refine ⟨allStations.filterMap fun y => if decide (r.stateOf y = .active) = decide (r'.stateOf y = .active) then none
    else some (y, decide (r'.stateOf y = .active)), ?_, fun y on => ?_, ?_⟩
  · rw [List.map_filterMap]
    refine List.filterMap_congr fun y _ => ?_
    dsimp only
    split <;> rfl
  · rw [List.mem_filterMap]
    constructor
    · rintro ⟨z, hz, eq⟩
      split at eq
      · simp at eq
      · rename_i differs
        simp only [Option.some.injEq, Prod.mk.injEq] at eq
        obtain ⟨rfl, rfl⟩ := eq
        refine ⟨mem_allStations.mp hz, by simp, ?_⟩
        by_cases h : r.stateOf z = .active <;> by_cases h' : r'.stateOf z = .active <;> simp [h, h'] at differs ⊢
    · rintro ⟨hy, is, was⟩
      refine ⟨y, mem_allStations.mpr hy, ?_⟩
      by_cases h : r.stateOf y = .active <;> by_cases h' : r'.stateOf y = .active <;> cases on <;>
        simp [h, h'] at is was ⊢
  · rw [map_fst_filterMap]
    exact allStations_pairwise.filter _

/-! ### Capture records and mismatches (R89, R161) -/

theorem itemRecords_length (x : Station) (items : List Item) :
    ∀ m : Image, (itemRecords x m items).length = items.length := by
  induction items with
  | nil => exact fun m => rfl
  | cons item items ih => exact fun m => congrArg (· + 1) (ih _)

/-- R19: the record of each item holds its point as the item has left it. -/
theorem itemRecords_getElem? (x : Station) {items : List Item} {item : Item} :
    ∀ {m : Image} {i : Nat}, items[i]? = some item →
      (itemRecords x m items)[i]? = some (itemRecord x ((items.take (i + 1)).foldl (applyItem x) m) item) := by
  induction items with
  | nil => simp
  | cons first items ih =>
    intro m i h
    cases i with
    | zero =>
      obtain rfl : first = item := by simpa using h
      rfl
    | succ i => simpa [itemRecords] using ih (by simpa using h)

/-- R89: the report of a frame that declares a P. -/
theorem mismatchReport_declared (s : State) {f : Frame} {x : Station} {p : Nat}
    (h : f = .rollcall x p ∨ (∃ k, f = .join x k p) ∨ ∃ items, f = .entry x p items) :
    s.mismatchReport f = if p ≠ s.setup.period ∧ x ≠ s.number
      then [.report .periodMismatch (some (.station x)) s.lifecycle] else [] := by
  rcases h with rfl | ⟨k, rfl⟩ | ⟨items, rfl⟩ <;>
    by_cases period : p = s.setup.period <;> by_cases own : x = s.number <;>
    simp [State.mismatchReport, periodMismatch?, State.ownPeriod, frameSender, period, own]

/-- R89: a frame that declares no P is no mismatch. -/
theorem mismatchReport_undeclared (s : State) {f : Frame}
    (h : ∀ x p, f ≠ .rollcall x p ∧ (∀ k, f ≠ .join x k p) ∧ ∀ items, f ≠ .entry x p items) :
    s.mismatchReport f = [] := by
  cases f with
  | rollcall x p => exact absurd rfl (h x p).1
  | join x k p => exact absurd rfl ((h x p).2.1 k)
  | entry x p items => exact absurd rfl ((h x p).2.2 items)
  | _ => rfl

/-- Settles O20: list by list. -/
theorem commitHandsOnWhatChanged : Obligations.CommitHandsOnWhatChanged := by
  refine ⟨takeLiveFrame_agenda, fun b a f => ⟨changedPoints b a f, handPoints_eq _, mem_changedPoints b a f,
    changedPoints_pairwise b a f⟩, fun f => rfl, peerChanges_spec, fun m x y k p items => ?_,
    fun s f => ⟨fun x p h => mismatchReport_declared s h, mismatchReport_undeclared s⟩⟩
  refine ⟨rfl, rfl, rfl, rfl, itemRecords_length x items m, fun i item h => ?_⟩
  refine (itemRecords_getElem? x h).trans ?_
  cases item <;> rfl

end Sys2Proof.Machine

/-! SUPPORT. How the hand-offs of a command are taken: the places that may come first, the path of `Takes` to the end of
a command, and what one evaluator event hands to each block (R127 to R131, R163). -/

namespace Sys2Proof.Machine

/-! ### The hand-offs that may come first (R131) -/

/-- R131: each place offered holds a hand-off whose channel neither was seen before nor stands before it. -/
theorem readyPlaces_spec {l : List HandOff} : ∀ {seen : List Channel} {k p : Nat}, p ∈ readyPlaces seen k l →
    k ≤ p ∧ ∃ h, l[p - k]? = some h ∧ h.channel ∉ seen ∧ ∀ g ∈ l.take (p - k), g.channel ≠ h.channel := by
  induction l with
  | nil => intro seen k p hp; simp [readyPlaces] at hp
  | cons g l ih =>
    intro seen k p hp
    have later : ∀ {seen'}, p ∈ readyPlaces seen' (k + 1) l → (∀ c, c ∈ seen → c ∈ seen') → g.channel ∈ seen' →
        k ≤ p ∧ ∃ h, (g :: l)[p - k]? = some h ∧ h.channel ∉ seen ∧
          ∀ g' ∈ (g :: l).take (p - k), g'.channel ≠ h.channel := by
      intro seen' hp' sub seesG
      obtain ⟨le, h, at_p, fresh, before⟩ := ih hp'
      obtain ⟨j, rfl⟩ : ∃ j, p = k + 1 + j := ⟨p - (k + 1), by omega⟩
      rw [show k + 1 + j - (k + 1) = j by omega] at at_p before
      rw [show k + 1 + j - k = j + 1 by omega]
      refine ⟨by omega, h, by simpa using at_p, fun hs => fresh (sub _ hs), ?_⟩
      rw [List.take_succ_cons]
      rintro g' (_ | ⟨_, hg'⟩)
      · exact fun eq => fresh (eq ▸ seesG)
      · exact before g' hg'
    unfold readyPlaces at hp
    split at hp
    · rename_i again
      exact later hp (fun c hc => hc) (by simpa using again)
    · rename_i fresh
      rcases List.mem_cons.mp hp with rfl | hp
      · refine ⟨le_rfl, g, by simp, by simpa using fresh, by simp⟩
      · exact later hp (fun c hc => List.mem_cons_of_mem _ hc) (List.mem_cons_self ..)

/-- A choice below `n` that has drawn at most a free value. -/
theorem draw_spec (s : State) (n : Nat) :
    ∃ i k, s.draw n = (i, { s with freeIndex := k }) ∧ (0 < n → i < n) := by
  unfold State.draw
  split
  · exact ⟨0, s.freeIndex, rfl, id⟩
  · exact ⟨_, _, rfl, fun pos => Nat.mod_lt _ pos⟩

/-- R131: the place chosen may be taken next. -/
theorem drawPlace_spec (s : State) {l : List HandOff} (some : l ≠ []) :
    ∃ i h k, s.drawPlace l = (i, { s with freeIndex := k }) ∧ MayBeTaken l i h := by
  unfold State.drawPlace
  obtain ⟨j, k, eq, low⟩ := draw_spec s (readyPlaces [] 0 l).length
  have ready : 0 < (readyPlaces [] 0 l).length := by
    cases l with
    | nil => exact absurd rfl some
    | cons g l => simp [readyPlaces]
  have mem : (readyPlaces [] 0 l).getD j 0 ∈ readyPlaces [] 0 l := by
    rw [List.getD_eq_getElem?_getD, List.getElem?_eq_getElem (low ready)]
    exact List.getElem_mem _
  obtain ⟨-, h, at_p, -, before⟩ := readyPlaces_spec mem
  exact ⟨(readyPlaces [] 0 l).getD j 0, h, k, by dsimp only; rw [eq], by simpa using at_p, by simpa using before⟩

/-! ### The path of `Takes` (R127) -/

/-- The free-value counter does not matter to what is taken. -/
theorem Takes.of_free {n k : Nat} {s t : State} (h : Takes n { s with freeIndex := k } t) : Takes n s t := by
  cases h with
  | done _ j => exact .done s j
  | task i h j may rest => exact .task i h j may rest
  | echo i h j may rest => exact .echo i h j may rest

theorem Takes.refl (s : State) : Takes 0 s s := .done s s.freeIndex

theorem Takes.trans {n m : Nat} {a b c : State} (h : Takes n a b) (k : Takes m b c) : Takes (n + m) a c := by
  induction h with
  | done s j => rw [Nat.zero_add]; exact k.of_free
  | task i h j may _ ih => exact .task i h j may (ih k)
  | @echo s t n i h j may _ ih => rw [Nat.add_right_comm]; exact .echo i h j may (ih k)

/-- One consequent hand-off is taken where one waits. -/
theorem takeEcho_takes {s : State} (h : s.echoes ≠ []) : Takes 1 s s.takeEcho := by
  obtain ⟨i, e, k, eq, may⟩ := drawPlace_spec s h
  have same : s.takeEcho = State.takeHandOff { s with echoes := s.echoes.eraseIdx i, freeIndex := k } e := by
    simp [State.takeEcho, eq, may.1]
  rw [same]
  exact .echo i e k may (.refl _)

/-- Log 4: consequent hand-offs are taken until none is left, or as many as the bound allows. -/
theorem runEchoes_takes : ∀ (n : Nat) (s : State),
    ∃ m, Takes m s (runEchoes n s) ∧ ((runEchoes n s).echoes = [] ∨ m = n)
  | 0, s => ⟨0, .refl s, .inr rfl⟩
  | n + 1, s => by
    unfold runEchoes
    split
    · rename_i none
      exact ⟨0, .refl s, .inl (by simpa using none)⟩
    · rename_i waits
      obtain ⟨m, takes, done⟩ := runEchoes_takes n s.takeEcho
      refine ⟨1 + m, (takeEcho_takes (by simpa using waits)).trans takes, done.imp_right fun e => ?_⟩
      rw [e, Nat.add_comm]

theorem someEchoes_takes (s : State) : ∃ m, Takes m s s.someEchoes := by
  unfold State.someEchoes
  split
  · exact ⟨0, .refl s⟩
  · obtain ⟨i, k, eq, -⟩ := draw_spec s (Config.echoFuel + 1)
    obtain ⟨m, takes, -⟩ := runEchoes_takes i { s with freeIndex := k }
    simp only [eq]
    exact ⟨m, takes.of_free⟩

/-- One hand-off of the command is taken where one waits, after any number of consequent ones. -/
theorem takeTask_takes (s : State) :
    (∃ m, Takes m s s.takeTask) ∧ s.takeTask.agenda.length = s.agenda.length - 1 := by
  obtain ⟨m, takes⟩ := someEchoes_takes s
  have agenda : s.someEchoes.agenda = s.agenda := someEchoes_agenda s
  by_cases none : s.someEchoes.agenda = []
  · obtain ⟨j, k, eq, -⟩ := draw_spec s.someEchoes (readyPlaces [] 0 s.someEchoes.agenda).length
    have same : s.takeTask = { s.someEchoes with freeIndex := k } := by
      unfold State.takeTask State.drawPlace
      dsimp only
      rw [eq]
      simp only [none, List.getElem?_nil]
    rw [same]
    exact ⟨⟨m + 0, takes.trans (.done _ k)⟩, by rw [← agenda, none]; rfl⟩
  · obtain ⟨i, e, k, eq, may⟩ := drawPlace_spec s.someEchoes none
    have same : s.takeTask =
        State.takeHandOff { s.someEchoes with agenda := s.someEchoes.agenda.eraseIdx i, freeIndex := k } e := by
      simp only [State.takeTask, eq, may.1]
    obtain ⟨inside, -⟩ := List.getElem?_eq_some_iff.mp may.1
    rw [same]
    refine ⟨⟨m + 0, takes.trans (.task i e k may (.refl _))⟩, ?_⟩
    rw [takeHandOff_agenda, ← agenda]
    exact List.length_eraseIdx_of_lt inside

theorem runTasks_takes : ∀ (n : Nat) (s : State),
    (∃ m, Takes m s (runTasks n s)) ∧ (runTasks n s).agenda.length = s.agenda.length - n
  | 0, s => ⟨⟨0, .refl s⟩, rfl⟩
  | n + 1, s => by
    obtain ⟨⟨m, first⟩, one⟩ := takeTask_takes s
    obtain ⟨⟨k, rest⟩, len⟩ := runTasks_takes n s.takeTask
    refine ⟨⟨m + k, first.trans rest⟩, ?_⟩
    rw [runTasks, len, one]
    omega

/-- Every hand-off of the command is taken. -/
theorem runTasks_agenda (s : State) : (runTasks s.agenda.length s).agenda = [] := by
  rw [← List.length_eq_zero_iff, (runTasks_takes s.agenda.length s).2, Nat.sub_self]

theorem someTasks_takes (s : State) : ∃ m, Takes m s s.someTasks := by
  obtain ⟨i, k, eq, -⟩ := draw_spec s (s.agenda.length + 1)
  obtain ⟨m, tasks⟩ := (runTasks_takes i { s with freeIndex := k }).1
  obtain ⟨n, echoes⟩ := someEchoes_takes (runTasks i { s with freeIndex := k })
  have same : s.someTasks = (runTasks i { s with freeIndex := k }).someEchoes := by simp [State.someTasks, eq]
  rw [same]
  exact ⟨m + n, tasks.of_free.trans echoes⟩

/-- R127: a command ends when every hand-off of it has been taken, and those that answer them up to the bound. -/
theorem finish_takes (s : State) :
    ∃ n, Takes n s s.finish ∧ s.finish.agenda = [] ∧ (s.finish.echoes = [] ∨ 4096 ≤ n) := by
  obtain ⟨m, tasks⟩ := (runTasks_takes s.agenda.length s).1
  obtain ⟨n, echoes, done⟩ := runEchoes_takes Config.echoFuel (runTasks s.agenda.length s)
  refine ⟨m + n, tasks.trans echoes, ?_, done.imp_right fun e => ?_⟩
  · exact (keepsAgenda_kept.runEchoes _ _).trans (runTasks_agenda s)
  · rw [e]
    exact Nat.le_add_left ..

/-! ### Points that take their values together (R18) -/

theorem putPoints_points (src : Sources) (changes : List (Point × Bool)) :
    src.putPoints changes = { src with points := changes.foldl (fun ps c => ps.set c.1 c.2) src.points } := by
  unfold Sources.putPoints
  induction changes generalizing src with
  | nil => rfl
  | cons c changes ih => exact ih _

theorem foldl_set_getElem? {α : Type} {q : Nat} (changes : List (Nat × α)) :
    ∀ {l : List α}, (changes.map Prod.fst).Nodup →
      ((∀ v, (q, v) ∈ changes → q < l.length → (changes.foldl (fun l c => l.set c.1 c.2) l)[q]? = some v) ∧
      ((∀ v, (q, v) ∉ changes) → (changes.foldl (fun l c => l.set c.1 c.2) l)[q]? = l[q]?)) := by
  induction changes with
  | nil => intro l _; simp
  | cons c changes ih =>
    intro l nodup
    obtain ⟨p, w⟩ := c
    simp only [List.map_cons, List.nodup_cons, List.mem_map, not_exists, not_and] at nodup
    obtain ⟨fresh, nodup⟩ := nodup
    obtain ⟨takes, keeps⟩ := ih (l := l.set p w) nodup
    refine ⟨fun v mem inside => ?_, fun none => ?_⟩
    · rcases List.mem_cons.mp mem with eq | mem
      · obtain ⟨rfl, rfl⟩ := Prod.mk.inj eq
        refine (keeps fun u hu => fresh _ hu rfl).trans ?_
        simp [inside]
      · exact takes v mem (by simpa using inside)
    · refine (keeps fun u hu => none u (List.mem_cons_of_mem _ hu)).trans ?_
      exact List.getElem?_set_ne fun e : p = q => none w (e ▸ List.mem_cons_self ..)

/-- R18: a changed point reads its new value, where it stands among the points. -/
theorem putPoints_value (src : Sources) {changes : List (Point × Bool)} (nodup : (changes.map Prod.fst).Nodup) :
    (∀ p v, (p, v) ∈ changes → p < src.points.length → (src.putPoints changes).value (.point p) = v) ∧
    (∀ x, (∀ p v, (p, v) ∈ changes → x ≠ .point p) → (src.putPoints changes).value x = src.value x) := by
  rw [putPoints_points]
  refine ⟨fun p v mem inside => ?_, fun x other => ?_⟩
  · simp only [Sources.value, List.getD_eq_getElem?_getD]
    rw [(foldl_set_getElem? (q := p) changes nodup).1 v mem inside]
    rfl
  · cases x with
    | point p =>
      simp only [Sources.value, List.getD_eq_getElem?_getD]
      rw [(foldl_set_getElem? (q := p) changes nodup).2 fun v mem => other p v mem rfl]
    | _ => rfl

/-! ### What an event leaves of the evaluator as it was -/

/-- What every pass keeps, a cascade keeps. -/
theorem evalCascade_keeps {ctx : EvalContext} {P : PassState → Prop}
    (pass : ∀ changed p, P p → P (evalPass ctx changed p)) (cascade : ∀ p l, P p → P { p with cascade := l }) :
    ∀ (fuel : Nat) (p : PassState), P p → P (evalCascade ctx fuel p)
  | 0, _, h => h
  | fuel + 1, p, h => by
    unfold evalCascade
    split
    · exact h
    · exact evalCascade_keeps pass cascade fuel _ (pass _ _ (cascade p _ h))

/-- What the first pass brings about and every pass keeps holds of the evaluator once an event has been taken. -/
theorem takeEvent_keeps {ctx : EvalContext} {event : EvalEvent} {e : Evaluator}
    {P : Evaluator → List EdgeRequest → Prop}
    (idle : event.isIdle e.src = true → P e [])
    (first : ∀ changed src, src.ownActive = decide (ctx.life = .active) →
      P (evalPass ctx changed ⟨{ e with src := src }, [], [], [], [], []⟩).eval
        (evalPass ctx changed ⟨{ e with src := src }, [], [], [], [], []⟩).requests)
    (pass : ∀ changed p, P p.eval p.requests →
      P (evalPass ctx changed p).eval (evalPass ctx changed p).requests)
    (counts : ∀ e l rs, P e rs → P { e with countRemembered := l } rs) :
    P (takeEvent ctx event e).eval (takeEvent ctx event e).requests := by
  unfold takeEvent
  split
  · rename_i h
    exact idle h
  · refine counts _ _ _ ?_
    exact evalCascade_keeps (P := fun p => P p.eval p.requests) pass (fun _ _ h => h) _ _ (first _ _ rfl)

/-- The names of the own contribution points and the trigger value last handed stay through an event. -/
def KeepsHanded (a b : Evaluator) : Prop :=
  b.triggerHanded = a.triggerHanded ∧ b.levels.contribs.map Prod.fst = a.levels.contribs.map Prod.fst

theorem evalPass_keepsHanded (ctx : EvalContext) (changed : List Source) (p : PassState) :
    KeepsHanded p.eval (evalPass ctx changed p).eval := by
  refine ⟨rfl, ?_⟩
  simp only [evalPass, List.map_map]
  rfl

theorem takeEvent_keepsHanded (ctx : EvalContext) (event : EvalEvent) (e : Evaluator) :
    KeepsHanded e (takeEvent ctx event e).eval := by
  refine takeEvent_keeps (P := fun b _ => KeepsHanded e b) (fun _ => ⟨rfl, rfl⟩)
    (fun changed src _ => evalPass_keepsHanded ctx changed ⟨{ e with src := src }, [], [], [], [], []⟩)
    (fun changed p h => ?_) fun _ _ _ h => h
  obtain ⟨trigger, contribs⟩ := evalPass_keepsHanded ctx changed p
  exact ⟨trigger.trans h.1, contribs.trans h.2⟩

/-! ### What each block takes of an event (R129) -/

/-- `t` differs from `s` at most in what edge requests reach: the request list, and through a PULSE over its limit the
fault unit, capture and the FAULT line's hand-offs. -/
def RequestsOnly (s t : State) : Prop :=
  t = { s with
    asm := { s.asm with requests := t.asm.requests, faultPart := t.asm.faultPart }
    fault := t.fault
    capture := t.capture
    echoes := t.echoes }

theorem RequestsOnly.trans {a b c : State} (h : RequestsOnly a b) (k : RequestsOnly b c) : RequestsOnly a c := by
  unfold RequestsOnly at h k ⊢
  rw [h] at k
  exact k

theorem takeReport_requestsOnly (s : State) (k : FaultKind) (subject : Option Subject) (life : Lifecycle) :
    RequestsOnly s (s.takeReport k subject life) := by
  unfold State.takeReport State.faultLineMoved
  dsimp only
  split <;> split <;> rfl

theorem takeEdgeRequest_requestsOnly (s : State) (r : EdgeRequest) : RequestsOnly s (s.takeEdgeRequest r) := by
  unfold State.takeEdgeRequest
  split
  · rfl
  · rfl
  · split
    · rfl
    · exact takeReport_requestsOnly s _ _ _
  all_goals rfl

theorem takeEdgeRequests_requestsOnly (rs : List EdgeRequest) :
    ∀ s : State, RequestsOnly s (rs.foldl State.takeEdgeRequest s) := by
  induction rs with
  | nil => exact fun s => rfl
  | cons r rs ih => exact fun s => (takeEdgeRequest_requestsOnly s r).trans (ih _)

/-- R129: the outputs once the commanded levels that differ among the first `k` have been handed. -/
theorem handToField_foldl (level : Nat → Option Bool) (k : Nat) (s : State) :
    ((List.range k).foldl (fun s n => match level n with
      | some v => s.commandOutput n v
      | none => s) s) =
    { s with field := { s.field with outputs := s.field.outputs.mapIdx fun n o =>
      if n < k then (match level n with
        | some on => FieldOutput.settle s.lifecycle (s.setup.output n) { o with commanded := on }
        | none => o) else o } } := by
  induction k with
  | zero =>
    have same : s.field.outputs.mapIdx (fun _ o => o) = s.field.outputs := List.ext_getElem? (by simp)
    simp [same]
  | succ k ih =>
    rw [List.range_succ, List.foldl_append, ih]
    simp only [List.foldl_cons, List.foldl_nil]
    cases h : level k with
    | none =>
      simp only [State.mk.injEq, FieldUnit.mk.injEq, true_and, and_true]
      refine List.mapIdx_eq_mapIdx_iff.mpr fun n hn => ?_
      by_cases last : n = k
      · subst last; simp [h]
      · simp [show n < k + 1 ↔ n < k by omega]
    | some on =>
      simp only [State.commandOutput, State.updateOutput, State.mk.injEq, FieldUnit.mk.injEq, true_and, and_true]
      refine List.ext_getElem? fun n => ?_
      rw [List.getElem?_modify, List.getElem?_mapIdx, List.getElem?_mapIdx]
      by_cases last : k = n
      · subst last
        cases s.field.outputs[k]? with
        | none => rfl
        | some o => simp [h]; rfl
      · simp [last, show n < k + 1 ↔ n < k by omega]

theorem handToField_eq (s : State) (before after : Evaluator) : s.handToField before after =
    { s with field := { s.field with outputs := s.field.outputs.mapIdx fun n o =>
      if n < 12 then (match handed (before.levels.outputs.getD n false) (after.levels.outputs.getD n false) with
        | some on => FieldOutput.settle s.lifecycle (s.setup.output n) { o with commanded := on }
        | none => o) else o } } :=
  handToField_foldl (fun n => handed (before.levels.outputs.getD n false) (after.levels.outputs.getD n false)) 12 s

/-- R65: what the written contributions make of one row. -/
def rowWritten (before after : List (Point × Bool)) (r : ContributionRow) : ContributionRow :=
  after.foldl (fun r c => if before.contains c then r else if r.point = c.1 then { r with terms := c.2 } else r) r

/-- R65, R129: the contribution table once the contributions that differ have been handed. -/
theorem handToAssembler_foldl (before after : List (Point × Bool)) (s : State) :
    after.foldl (fun s (p, v) => if before.contains (p, v) then s else s.writeDesired p v) s =
      { s with asm := { s.asm with rows := s.asm.rows.map (rowWritten before after) } } := by
  induction after generalizing s with
  | nil =>
    have same : rowWritten before [] = id := rfl
    simp [same]
  | cons c after ih =>
    rw [List.foldl_cons, ih]
    obtain ⟨p, v⟩ := c
    by_cases held : before.contains (p, v) = true
    · simp only [held, if_true]
      have same : rowWritten before ((p, v) :: after) = rowWritten before after := by
        funext r; simp only [rowWritten, List.foldl_cons, held, if_true]
      rw [same]
    · simp only [held]
      simp only [State.writeDesired, State.mk.injEq, Assembler.mk.injEq, true_and, and_true, if_false,
        Bool.false_eq_true, List.map_map]
      refine List.map_congr_left fun r _ => ?_
      simp only [Function.comp, rowWritten, List.foldl_cons, held, if_false, Bool.false_eq_true]

theorem handToAssembler_eq (s : State) (before after : Evaluator) : s.handToAssembler before after =
    { s with asm := { s.asm with
      rows := s.asm.rows.map (rowWritten before.levels.contribs after.levels.contribs) } } :=
  handToAssembler_foldl before.levels.contribs after.levels.contribs s

/-- R65: a row whose contribution has changed takes it, and any other stays. -/
theorem rowWritten_spec (before : List (Point × Bool)) {after : List (Point × Bool)}
    (nodup : (after.map Prod.fst).Nodup) (r : ContributionRow) :
    (∀ v, (r.point, v) ∈ after → (r.point, v) ∉ before → rowWritten before after r = { r with terms := v }) ∧
    ((∀ v, (r.point, v) ∈ after → (r.point, v) ∈ before) → rowWritten before after r = r) := by
  have keeps : ∀ {l : List (Point × Bool)} (r : ContributionRow), (∀ v, (r.point, v) ∈ l → (r.point, v) ∈ before) →
      rowWritten before l r = r := by
    intro l
    induction l with
    | nil => exact fun _ _ => rfl
    | cons c l ih =>
      intro r same
      have stays : (if before.contains c then r else if r.point = c.1 then { r with terms := c.2 } else r) = r := by
        split
        · rfl
        · rename_i fresh
          refine if_neg fun e => fresh ?_
          have mem := same c.2 (by rw [e]; exact List.mem_cons_self ..)
          rw [e] at mem
          simpa using mem
      rw [rowWritten, List.foldl_cons, stays]
      exact ih r fun v hv => same v (List.mem_cons_of_mem _ hv)
  refine ⟨?_, keeps r⟩
  induction after generalizing r with
  | nil => simp
  | cons c after ih =>
    intro v mem fresh
    obtain ⟨p, w⟩ := c
    simp only [List.map_cons, List.nodup_cons, List.mem_map, not_exists, not_and] at nodup
    obtain ⟨first, nodup⟩ := nodup
    have step : rowWritten before ((p, w) :: after) r = rowWritten before after
        (if before.contains (p, w) then r else if r.point = p then { r with terms := w } else r) := rfl
    rcases List.mem_cons.mp mem with eq | mem
    · obtain ⟨rfl, rfl⟩ := Prod.mk.inj eq
      rw [step, if_neg (by simpa using fresh), if_pos rfl]
      exact keeps { r with terms := v } fun u hu => absurd rfl (first _ hu)
    · have other : r.point ≠ p := fun e => first _ mem e
      rw [step, if_neg other, ite_self]
      exact ih nodup r v mem fresh

/-- The trigger literal at capture, where one is configured (R163). -/
theorem handToCapture_some {s : State} {l : Literal} (h : s.setup.capture.trigger = some l) :
    s.handToCapture = { s with
      eval := { s.eval with triggerHanded := l.on s.eval.src }
      capture := if l.on s.eval.src = true ∧ s.eval.triggerHanded = false
        then s.capture.takeTrigger s.setup.capture.postCount else s.capture } := by
  unfold State.handToCapture
  simp only [h]
  cases l.on s.eval.src <;> cases s.eval.triggerHanded <;> rfl

theorem handToCapture_none {s : State} (h : s.setup.capture.trigger = none) : s.handToCapture = s := by
  unfold State.handToCapture
  simp only [h]

/-- R129: the state of the station once one event has reached every block but capture; `u` is the state in which the
edge requests have been taken. -/
def State.eventHanded (u : State) (before after : Evaluator) (counted : List Nat) : State :=
  let standing := fun g => handed (isOpenGate before.gates g) (isOpenGate after.gates g)
  let timers : TimerUnit :=
    { timers := u.timers.timers.mapIdx fun n t =>
        TimerState.takeInputs (u.setup.timer n).kind
          ⟨standing (u.setup.timer n).gate,
            handed (before.levels.coils.getD n false) (after.levels.coils.getD n false),
            handed (before.levels.resets.getD n false) (after.levels.resets.getD n false)⟩ t
      counters := u.timers.counters.mapIdx fun n c =>
        CounterState.takeInputs (u.setup.counter n).preset
          ⟨standing (u.setup.counter n).gate,
            handed (before.levels.countResets.getD n false) (after.levels.countResets.getD n false),
            counted.contains n⟩ c }
  { u with
    timers := timers
    echoes := u.echoes ++ doneChanges u.timers timers
    field := { u.field with outputs := u.field.outputs.mapIdx fun n o =>
      if n < 12 then (match handed (before.levels.outputs.getD n false) (after.levels.outputs.getD n false) with
        | some on => FieldOutput.settle u.lifecycle (u.setup.output n) { o with commanded := on }
        | none => o) else o }
    asm := { u.asm with rows := u.asm.rows.map (rowWritten before.levels.contribs after.levels.contribs) } }

/-- R127 to R130: one event whole, up to the trigger literal. -/
theorem takeEvalEvent_eq (s : State) (event : EvalEvent) :
    let o := takeEvent s.evalContext event s.eval
    s.takeEvalEvent event =
      ((o.requests.foldl State.takeEdgeRequest { s with eval := o.eval }).eventHanded
        s.eval o.eval o.counted).handToCapture := by
  dsimp only
  unfold State.takeEvalEvent
  dsimp only
  rw [handToField_eq, handToAssembler_eq]
  rfl

/-- Capture and the trigger value last handed are all that the trigger literal moves. -/
theorem handToCapture_only (s : State) : ∃ e c, s.handToCapture = { s with eval := e, capture := c } := by
  cases h : s.setup.capture.trigger with
  | none => exact ⟨s.eval, s.capture, handToCapture_none h⟩
  | some l => exact ⟨_, _, handToCapture_some h⟩

section
variable (s : State) (event : EvalEvent)

/-- The state in which the edge requests of an event have been taken (R129). -/
def State.requestsTaken : State :=
  (takeEvent s.evalContext event s.eval).requests.foldl State.takeEdgeRequest
    { s with eval := (takeEvent s.evalContext event s.eval).eval }

theorem requestsTaken_eq :
    s.requestsTaken event = { s with
      eval := (takeEvent s.evalContext event s.eval).eval
      asm := { s.asm with
        requests := (s.requestsTaken event).asm.requests, faultPart := (s.requestsTaken event).asm.faultPart }
      fault := (s.requestsTaken event).fault
      capture := (s.requestsTaken event).capture
      echoes := (s.requestsTaken event).echoes } :=
  takeEdgeRequests_requestsOnly _ _

theorem requestsTaken_loader : (s.requestsTaken event).loader = s.loader := by
  rw [requestsTaken_eq]

theorem requestsTaken_eval : (s.requestsTaken event).eval = (takeEvent s.evalContext event s.eval).eval := by
  rw [requestsTaken_eq]

theorem requestsTaken_timers : (s.requestsTaken event).timers = s.timers := by
  rw [requestsTaken_eq]

theorem requestsTaken_field : (s.requestsTaken event).field = s.field := by
  rw [requestsTaken_eq]

theorem requestsTaken_rows : (s.requestsTaken event).asm.rows = s.asm.rows := by
  rw [requestsTaken_eq]

theorem requestsTaken_setup : (s.requestsTaken event).setup = s.setup := by
  rw [State.setup, requestsTaken_loader]; rfl

/-- R129: all that one event hands on, up to the trigger literal. -/
theorem takeEvalEvent_fields : ∃ e c, s.takeEvalEvent event =
    { (s.requestsTaken event).eventHanded s.eval (takeEvent s.evalContext event s.eval).eval
        (takeEvent s.evalContext event s.eval).counted with eval := e, capture := c } := by
  obtain ⟨e, c, eq⟩ := handToCapture_only ((s.requestsTaken event).eventHanded s.eval
    (takeEvent s.evalContext event s.eval).eval (takeEvent s.evalContext event s.eval).counted)
  exact ⟨e, c, (takeEvalEvent_eq s event).trans eq⟩

/-- R134: the done states that one event has changed answer it, behind what its requests have handed on. -/
theorem takeEvalEvent_echoes : (s.takeEvalEvent event).echoes =
    (s.requestsTaken event).echoes ++ doneChanges s.timers (s.takeEvalEvent event).timers := by
  obtain ⟨e, c, eq⟩ := takeEvalEvent_fields s event
  rw [eq]
  exact congrArg (fun u => (s.requestsTaken event).echoes ++ doneChanges u _) (requestsTaken_timers s event)

/-- R129: what one event hands each timer. -/
theorem takeEvalEvent_timer {n : Nat} {v : TimerState} (h : s.timers.timers[n]? = some v) :
    let b := (takeEvent s.evalContext event s.eval).eval
    (s.takeEvalEvent event).timers.timers[n]? = some (TimerState.takeInputs (s.setup.timer n).kind
      ⟨handed (isOpenGate s.eval.gates (s.setup.timer n).gate) (isOpenGate b.gates (s.setup.timer n).gate),
        handed (s.eval.levels.coils.getD n false) (b.levels.coils.getD n false),
        handed (s.eval.levels.resets.getD n false) (b.levels.resets.getD n false)⟩ v) := by
  obtain ⟨e, c, eq⟩ := takeEvalEvent_fields s event
  rw [eq]
  simp [State.eventHanded, requestsTaken_timers, requestsTaken_setup, h]

/-- R129: what one event hands each counter. -/
theorem takeEvalEvent_counter {n : Nat} {v : CounterState} (h : s.timers.counters[n]? = some v) :
    let o := takeEvent s.evalContext event s.eval
    (s.takeEvalEvent event).timers.counters[n]? = some (CounterState.takeInputs (s.setup.counter n).preset
      ⟨handed (isOpenGate s.eval.gates (s.setup.counter n).gate) (isOpenGate o.eval.gates (s.setup.counter n).gate),
        handed (s.eval.levels.countResets.getD n false) (o.eval.levels.countResets.getD n false),
        decide (n ∈ o.counted)⟩ v) := by
  obtain ⟨e, c, eq⟩ := takeEvalEvent_fields s event
  rw [eq]
  simp [State.eventHanded, requestsTaken_timers, requestsTaken_setup, h]

/-- R129: what one event hands each output. -/
theorem takeEvalEvent_output {n : Nat} {v : FieldOutput} (low : n < 12) (h : s.field.outputs[n]? = some v) :
    let b := (takeEvent s.evalContext event s.eval).eval
    (s.takeEvalEvent event).field.outputs[n]? =
      some (match handed (s.eval.levels.outputs.getD n false) (b.levels.outputs.getD n false) with
        | some on => FieldOutput.settle s.lifecycle (s.setup.output n) { v with commanded := on }
        | none => v) := by
  obtain ⟨e, c, eq⟩ := takeEvalEvent_fields s event
  have life : (s.requestsTaken event).lifecycle = s.lifecycle := by rw [requestsTaken_eq]
  rw [eq]
  simp only [State.eventHanded, requestsTaken_field, requestsTaken_setup, life, List.getElem?_mapIdx, h, low, if_true,
    Option.map_some]

/-- R65, R129: the contribution table after one event. -/
theorem takeEvalEvent_rows :
    (s.takeEvalEvent event).asm.rows = s.asm.rows.map
      (rowWritten s.eval.levels.contribs (takeEvent s.evalContext event s.eval).eval.levels.contribs) := by
  obtain ⟨e, c, eq⟩ := takeEvalEvent_fields s event
  rw [eq]
  simp [State.eventHanded, requestsTaken_rows]

/-- R163: what one event hands capture, where a trigger literal is configured. -/
theorem takeEvalEvent_trigger {l : Literal} (h : s.setup.capture.trigger = some l) :
    let b := (takeEvent s.evalContext event s.eval).eval
    (s.takeEvalEvent event).eval = { b with triggerHanded := l.on b.src } ∧
    (s.takeEvalEvent event).capture = if l.on b.src = true ∧ s.eval.triggerHanded = false
      then (s.requestsTaken event).capture.takeTrigger s.setup.capture.postCount
      else (s.requestsTaken event).capture := by
  obtain ⟨trigger, -⟩ := takeEvent_keepsHanded s.evalContext event s.eval
  have eq := takeEvalEvent_eq s event
  have configured : ((s.requestsTaken event).eventHanded s.eval (takeEvent s.evalContext event s.eval).eval
      (takeEvent s.evalContext event s.eval).counted).setup = s.setup := requestsTaken_setup s event
  have evaluator : ((s.requestsTaken event).eventHanded s.eval (takeEvent s.evalContext event s.eval).eval
      (takeEvent s.evalContext event s.eval).counted).eval = (takeEvent s.evalContext event s.eval).eval :=
    requestsTaken_eval s event
  have capture : ((s.requestsTaken event).eventHanded s.eval (takeEvent s.evalContext event s.eval).eval
      (takeEvent s.evalContext event s.eval).counted).capture = (s.requestsTaken event).capture := rfl
  dsimp only at eq ⊢
  rw [eq, ← State.requestsTaken, handToCapture_some (l := l) (by rw [configured, h])]
  dsimp only
  rw [evaluator, configured, capture, trigger]
  exact ⟨rfl, rfl⟩

theorem takeEvalEvent_untriggered (h : s.setup.capture.trigger = none) :
    (s.takeEvalEvent event).eval = (takeEvent s.evalContext event s.eval).eval ∧
    (s.takeEvalEvent event).capture = (s.requestsTaken event).capture := by
  have eq := (takeEvalEvent_eq s event).trans (handToCapture_none (by rw [← h, ← requestsTaken_setup s event]; rfl))
  rw [eq]
  exact ⟨requestsTaken_eval s event, rfl⟩

end

/-- Settles O54: the end of a command, each hand-off's block, and one event's hand-offs block by block. -/
theorem handOffsReachTheirBlocks : Obligations.HandOffsReachTheirBlocks := by
  refine ⟨finish_takes, fun s => ⟨fun _ => rfl, fun _ _ => rfl, rfl, rfl, fun _ _ => rfl, fun _ => rfl,
    fun _ _ _ => rfl⟩, fun src changes nodup => putPoints_value src nodup, fun s event nodup => ?_⟩
  obtain ⟨e, c, eq⟩ := takeEvalEvent_fields s event
  obtain ⟨-, contribs⟩ := takeEvent_keepsHanded s.evalContext event s.eval
  have rows := takeEvalEvent_rows s event
  have row : ∀ (i : Nat) (r r' : ContributionRow), s.asm.rows[i]? = some r →
      rowWritten s.eval.levels.contribs (takeEvent s.evalContext event s.eval).eval.levels.contribs r = r' →
      (s.takeEvalEvent event).asm.rows[i]? = some r' := fun i r r' h w => by
    rw [rows, List.getElem?_map, h, Option.map_some, w]
  have written := rowWritten_spec s.eval.levels.contribs (contribs ▸ nodup)
  refine ⟨untouched_carried.toKept.takeEvalEvent s event, keepsAgenda_kept.takeEvalEvent s event, ?free,
    by rw [eq]; rfl, by rw [eq]; rfl, by rw [eq]; rfl, ?echoes, ?timers, ?counters,
    fun n v h => takeEvalEvent_timer s event h, fun n v h => takeEvalEvent_counter s event h, ?outputs,
    fun n v low h => takeEvalEvent_output s event low h, by rw [rows, List.length_map],
    fun i r h => ⟨fun v mem fresh => row i r _ h ((written r).1 v mem fresh),
      fun same => row i r _ h ((written r).2 same)⟩,
    fun l h => takeEvalEvent_trigger s event h, takeEvalEvent_untriggered s event⟩
  case free =>
    rw [eq]
    show (s.requestsTaken event).freeIndex = s.freeIndex
    rw [requestsTaken_eq]
  case echoes => exact takeEvalEvent_echoes s event
  case timers => rw [eq]; simp [State.eventHanded, requestsTaken_timers]
  case counters => rw [eq]; simp [State.eventHanded, requestsTaken_timers]
  case outputs => rw [eq]; simp [State.eventHanded, requestsTaken_field]

end Sys2Proof.Machine

/-! SUPPORT. What holds once a named hand-off of a command has been taken, and the departures from the link: what every
block is left with, and what is handed on (R93, R113, R115, R123, R126, R149). -/

namespace Sys2Proof.Machine

/-! ### What a hand-off brings about on the path of `Takes` -/

/-- A hand-off that waits still waits once another has been taken. -/
theorem mem_eraseIdx_of_ne {l : List HandOff} {i : Nat} {g h : HandOff} (at_i : l[i]? = some h) (mem : g ∈ l)
    (ne : g ≠ h) : g ∈ l.eraseIdx i := by
  obtain ⟨j, at_j⟩ := List.mem_iff_getElem?.mp mem
  refine List.mem_eraseIdx_iff_getElem?.mpr ⟨j, fun e => ne ?_, at_j⟩
  subst e
  exact Option.some.inj (at_j.symm.trans at_i)

/-- What one hand-off brings about, and every hand-off keeps in a station with `I`, holds once that hand-off has been
taken. -/
theorem Takes.reaches {I P : State → Prop} {g : HandOff}
    (lists : ∀ (s : State) a e k, (I s → I { s with agenda := a, echoes := e, freeIndex := k }) ∧
      (P s → P { s with agenda := a, echoes := e, freeIndex := k }))
    (take : ∀ (s : State) h, I s → I (s.takeHandOff h) ∧ (P s ∨ h = g → P (s.takeHandOff h)))
    {n : Nat} {s t : State} (takes : Takes n s t) :
    I s → (P s ∨ g ∈ s.agenda) → I t ∧ (P t ∨ g ∈ t.agenda) := by
  induction takes with
  | done s k => exact fun i p => ⟨(lists s s.agenda s.echoes k).1 i, p.imp_left (lists s s.agenda s.echoes k).2⟩
  | @task s t n j h k may _ ih =>
    intro i p
    have listed := lists s (s.agenda.eraseIdx j) s.echoes k
    obtain ⟨i', p'⟩ := take { s with agenda := s.agenda.eraseIdx j, freeIndex := k } h (listed.1 i)
    refine ih i' ?_
    rw [takeHandOff_agenda]
    rcases p with p | mem
    · exact .inl (p' (.inl (listed.2 p)))
    · by_cases same : h = g
      · exact .inl (p' (.inr same))
      · exact .inr (mem_eraseIdx_of_ne may.1 mem (Ne.symm same))
  | @echo s t n j h k may _ ih =>
    intro i p
    have listed := lists s s.agenda (s.echoes.eraseIdx j) k
    obtain ⟨i', p'⟩ := take { s with echoes := s.echoes.eraseIdx j, freeIndex := k } h (listed.1 i)
    refine ih i' ?_
    rw [takeHandOff_agenda]
    exact p.imp_left fun p => p' (.inl (listed.2 p))

/-! ### What one event leaves the other blocks -/

/-- An event leaves the evaluator as the event has made it, but for the trigger value last handed. -/
theorem takeEvalEvent_eval (s : State) (event : EvalEvent) : ∃ v, (s.takeEvalEvent event).eval =
    { (takeEvent s.evalContext event s.eval).eval with triggerHanded := v } := by
  cases h : s.setup.capture.trigger with
  | some l => exact ⟨_, (takeEvalEvent_trigger s event h).1⟩
  | none => exact ⟨_, (takeEvalEvent_untriggered s event h).1⟩

/-- An event hands the request list the requests of the terms that fired, and nothing else. -/
theorem takeEvalEvent_requests (s : State) (event : EvalEvent) :
    (s.takeEvalEvent event).asm.requests = (s.requestsTaken event).asm.requests := by
  obtain ⟨e, c, eq⟩ := takeEvalEvent_fields s event
  rw [eq]
  rfl

theorem takeReport_requests (s : State) (k : FaultKind) (subject : Option Subject) (life : Lifecycle) :
    (s.takeReport k subject life).asm.requests = s.asm.requests := by
  unfold State.takeReport State.faultLineMoved
  dsimp only
  split <;> split <;> rfl

theorem takeReport_eval (s : State) (k : FaultKind) (subject : Option Subject) (life : Lifecycle) :
    (s.takeReport k subject life).eval = s.eval := by
  rw [takeReport_requestsOnly s k subject life]

theorem takeReport_field (s : State) (k : FaultKind) (subject : Option Subject) (life : Lifecycle) :
    (s.takeReport k subject life).field = s.field := by
  rw [takeReport_requestsOnly s k subject life]

/-- No hand-off changes the lifecycle, the configuration or the standing. -/
theorem takeHandOff_untouched (s : State) (h : HandOff) : Untouched s (s.takeHandOff h) :=
  untouched_carried.toKept.takeHandOff s h

/-! ### The evaluator under a given G0 (R123, R126) -/

/-- The state of G0 at the end of a pass, whatever the pass. -/
theorem evalPass_gates (ctx : EvalContext) (changed : List Source) (p : PassState) :
    (evalPass ctx changed p).eval.gates = gateStates ctx.setup p.eval.src ctx.life ctx.standing := rfl

/-- Under a CLOSED G0 every gate is CLOSED. -/
theorem gateState_closed (setup : StationSetup) (src : Sources) : ∀ fuel g, gateState setup src .closed fuel g = .closed
  | 0, _ => rfl
  | fuel + 1, g => by
    unfold gateState
    split
    · rfl
    · dsimp only
      split
      · split
        · exact gateState_closed setup src fuel _
        · rfl
      · split
        · exact gateState_closed setup src fuel _
        · rfl

/-- R120: under a CLOSED gate no term fires. -/
theorem fires_closed (t : Term) (result remembered : Bool) : fires t .closed result remembered = false := by
  simp [fires]

/-- R126: OWN-ACTIVE is OFF and every gate CLOSED. -/
def Evaluator.Shut (e : Evaluator) : Prop := e.src.ownActive = false ∧ ∀ g ∈ e.gates, g = .closed

theorem evalPass_shut {ctx : EvalContext} (g0 : stationGate ctx.life ctx.standing = .closed) (changed : List Source)
    {p : PassState} (own : p.eval.src.ownActive = false) (none : p.requests = []) :
    (evalPass ctx changed p).eval.Shut ∧ (evalPass ctx changed p).requests = [] := by
  have gates : ∀ g ∈ gateStates ctx.setup p.eval.src ctx.life ctx.standing, g = .closed := by
    unfold gateStates
    rw [g0]
    rintro g hg
    obtain ⟨n, -, rfl⟩ := List.mem_map.mp hg
    exact gateState_closed ..
  have closed : ∀ n, (gateStates ctx.setup p.eval.src ctx.life ctx.standing).getD n .closed = .closed := by
    intro n
    rw [List.getD_eq_getElem?_getD]
    cases h : (gateStates ctx.setup p.eval.src ctx.life ctx.standing)[n]? with
    | none => rfl
    | some g => exact gates g (List.mem_of_getElem? h)
  refine ⟨⟨own, gates⟩, ?_⟩
  simp only [evalPass, none, closed, fires_closed, Bool.and_false, Bool.false_eq_true, if_false, List.nil_append]
  exact List.filterMap_eq_nil_iff.mpr fun _ _ => rfl

/-- R123: an event taken under a CLOSED G0 fires no term; the lifecycle event shuts the evaluator, and every event
leaves it shut. -/
theorem takeEvent_shut {ctx : EvalContext} (life : ctx.life ≠ .active)
    (g0 : stationGate ctx.life ctx.standing = .closed) (event : EvalEvent) (e : Evaluator) :
    (takeEvent ctx event e).requests = [] ∧
    (e.Shut ∨ event = .lifecycle → (takeEvent ctx event e).eval.Shut) := by
  by_cases idle : event.isIdle e.src = true
  · have held : takeEvent ctx event e = ⟨e, [], []⟩ := by simp [takeEvent, idle]
    rw [held]
    refine ⟨rfl, fun h => h.elim id ?_⟩
    rintro rfl
    cases idle
  · obtain ⟨shut, none⟩ := takeEvent_keeps (ctx := ctx) (event := event) (e := e) (P := fun b rs => b.Shut ∧ rs = [])
      (fun h => absurd h idle) (fun changed src own => evalPass_shut g0 changed (own.trans (decide_eq_false life)) rfl)
      (fun changed p ⟨⟨own, _⟩, quiet⟩ => evalPass_shut g0 changed own quiet) fun _ _ _ h => h
    exact ⟨none, fun _ => shut⟩

/-! ### A station off the link (R113, R115) -/

/-- The station is DETACHED or in LINK-FAULT, and asks for nothing. -/
def State.OffLink (s : State) : Prop :=
  (s.lifecycle = .detached ∨ s.lifecycle = .linkFault) ∧ s.asm.requests = []

/-- R149: every output that is not configured HOLD is driven OFF. -/
def State.DrivenOff (s : State) : Prop :=
  ∀ (n : Nat) (o : FieldOutput), s.field.outputs[n]? = some o → (s.setup.output n).hold = false → o.driven = false

theorem OffLink.notActive {s : State} (h : s.OffLink) : s.lifecycle ≠ .active := by
  rcases h.1 with life | life <;> simp [life]

theorem OffLink.gate {s : State} (h : s.OffLink) : stationGate s.lifecycle s.image.standing = .closed := by
  rcases h.1 with life | life <;> simp [life, stationGate]

/-- R149: what an output without HOLD that is off the link is driven to. -/
theorem settle_driven {life : Lifecycle} (off : life ≠ .active) {setup : OutputSetup} (hold : setup.hold = false)
    (o : FieldOutput) : (FieldOutput.settle life setup o).driven = false := by
  have level : drivenLevel life setup o = false := by simp [drivenLevel, off, hold]
  simp only [FieldOutput.settle, level, off, if_false, FieldOutput.drive]
  split
  · rename_i same; exact same.symm
  · split <;> rfl

/-- R113, R126: off the link an event fires nothing, and the evaluator that is shut stays so. -/
theorem takeEvalEvent_offLink {s : State} (off : s.OffLink) (event : EvalEvent) :
    (s.takeEvalEvent event).asm.requests = [] ∧
    (s.eval.Shut ∨ event = .lifecycle → (s.takeEvalEvent event).eval.Shut) ∧
    (s.DrivenOff → (s.takeEvalEvent event).DrivenOff) := by
  obtain ⟨none, shut⟩ := takeEvent_shut (ctx := s.evalContext) (OffLink.notActive off) (OffLink.gate off) event s.eval
  obtain ⟨v, eval⟩ := takeEvalEvent_eval s event
  refine ⟨?_, fun h => by rw [eval]; exact shut h, fun driven n o at_n hold => ?_⟩
  · rw [takeEvalEvent_requests, State.requestsTaken, none]
    exact off.2
  · obtain ⟨e, c, eq⟩ := takeEvalEvent_fields s event
    have setup : (s.takeEvalEvent event).setup = s.setup :=
      congrArg (fun l : Loader => l.config.getD StationSetup.blank)
        (untouched_carried.toKept.takeEvalEvent s event).loader
    have life : (s.requestsTaken event).lifecycle = s.lifecycle := by rw [requestsTaken_eq]
    rw [setup] at hold
    rw [eq] at at_n
    simp only [State.eventHanded, requestsTaken_field, requestsTaken_setup, life, List.getElem?_mapIdx,
      Option.map_eq_some_iff] at at_n
    obtain ⟨o', at_n, rfl⟩ := at_n
    split
    · split
      · exact settle_driven (OffLink.notActive off) hold _
      · exact driven n o' at_n hold
    · exact driven n o' at_n hold

/-- R113, R149: off the link every hand-off leaves no request, keeps the evaluator shut and the outputs driven OFF; the
lifecycle's hand-offs bring both about. -/
theorem takeHandOff_offLink {s : State} (off : s.OffLink) (h : HandOff) :
    (s.takeHandOff h).asm.requests = [] ∧
    (s.eval.Shut ∨ h = .lifecycleToEvaluator → (s.takeHandOff h).eval.Shut) ∧
    (s.DrivenOff ∨ h = .lifecycleToField → (s.takeHandOff h).DrivenOff) := by
  have other : ∀ {t : State}, t.asm.requests = s.asm.requests → t.eval.Shut = s.eval.Shut → t.field = s.field →
      t.loader = s.loader → h ≠ .lifecycleToEvaluator → h ≠ .lifecycleToField →
      t.asm.requests = [] ∧ (s.eval.Shut ∨ h = .lifecycleToEvaluator → t.eval.Shut) ∧
        (s.DrivenOff ∨ h = .lifecycleToField → t.DrivenOff) := by
    intro t requests shut field loader notEval notField
    refine ⟨requests.trans off.2, fun p => shut ▸ p.resolve_right notEval, fun p => ?_⟩
    have driven := p.resolve_right notField
    unfold State.DrivenOff State.setup at driven ⊢
    rw [field, loader]
    exact driven
  cases h with
  | pointsApplied changes =>
    have shut : (s.takeHandOff (.pointsApplied changes)).eval.Shut = s.eval.Shut := by
      simp [State.takeHandOff, Evaluator.Shut, putPoints_points]
    exact other rfl shut rfl rfl (by simp) (by simp)
  | source x on =>
    obtain ⟨requests, shut, driven⟩ := takeEvalEvent_offLink off (.source x on)
    exact ⟨requests, fun p => shut (.inl (p.resolve_right (by simp))), fun p => driven (p.resolve_right (by simp))⟩
  | lifecycleToEvaluator =>
    obtain ⟨requests, shut, driven⟩ := takeEvalEvent_offLink off .lifecycle
    exact ⟨requests, fun _ => shut (.inr rfl), fun p => driven (p.resolve_right (by simp))⟩
  | lifecycleToField =>
    refine ⟨off.2, fun p => p.resolve_right (by simp), fun _ n o at_n hold => ?_⟩
    simp only [State.takeHandOff, State.fieldLifecycle, List.getElem?_mapIdx, Option.map_eq_some_iff] at at_n
    obtain ⟨o', -, rfl⟩ := at_n
    exact settle_driven (OffLink.notActive off) hold o'
  | pulse p n => exact other rfl rfl rfl rfl (by simp) (by simp)
  | group bodies => exact other rfl rfl rfl rfl (by simp) (by simp)
  | report k subject life =>
    exact other (takeReport_requests s k subject life) (congrArg Evaluator.Shut (takeReport_eval s k subject life))
      (takeReport_field s k subject life) (takeReport_untouched s k subject life).loader (by simp) (by simp)

/-- Off the link, what the lifecycle's hand-offs bring about holds once every hand-off has been taken. -/
theorem finish_offLink {s : State} (off : s.OffLink) (evaluator : HandOff.lifecycleToEvaluator ∈ s.agenda)
    (field : HandOff.lifecycleToField ∈ s.agenda) :
    s.finish.asm.requests = [] ∧ s.finish.eval.Shut ∧ s.finish.DrivenOff := by
  obtain ⟨n, takes, agenda, -⟩ := finish_takes s
  have step : ∀ (s : State) h, s.OffLink → (s.takeHandOff h).OffLink := fun s h off =>
    ⟨by rw [(takeHandOff_untouched s h).lifecycle]; exact off.1, (takeHandOff_offLink off h).1⟩
  obtain ⟨last, shut⟩ := takes.reaches (I := State.OffLink) (P := fun s => s.eval.Shut)
    (g := .lifecycleToEvaluator) (fun _ _ _ _ => ⟨id, id⟩)
    (fun s h off => ⟨step s h off, (takeHandOff_offLink off h).2.1⟩) off (.inr evaluator)
  obtain ⟨-, driven⟩ := takes.reaches (I := State.OffLink) (P := State.DrivenOff)
    (g := .lifecycleToField) (fun _ _ _ _ => ⟨id, id⟩)
    (fun s h off => ⟨step s h off, (takeHandOff_offLink off h).2.2⟩) off (.inr field)
  rw [agenda] at shut driven
  exact ⟨last.2, shut.resolve_right (by simp), driven.resolve_right (by simp)⟩

/-! ### Leaving the link (R113, R115) -/

/-- What a departure leaves as it finds it. -/
structure SameStation (s u : State) : Prop where
  pending  : u.pending = s.pending
  timeBase : u.timeBase = s.timeBase
  loader   : u.loader = s.loader
  attempts : u.join.attempts = s.join.attempts
  inputs   : u.field.inputs = s.field.inputs
  points   : u.asm.rows.map (·.point) = s.asm.rows.map (·.point)

theorem SameStation.refl (s : State) : SameStation s s := ⟨rfl, rfl, rfl, rfl, rfl, rfl⟩

theorem SameStation.trans {a b c : State} (h : SameStation a b) (k : SameStation b c) : SameStation a c :=
  ⟨k.pending.trans h.pending, k.timeBase.trans h.timeBase, k.loader.trans h.loader, k.attempts.trans h.attempts,
    k.inputs.trans h.inputs, k.points.trans h.points⟩

theorem Untouched.sameStation {s t : State} (h : Untouched s t) : SameStation s t where
  pending := h.pending
  timeBase := h.timeBase
  loader := h.loader
  attempts := congrArg JoinController.attempts h.join
  inputs := h.inputs
  points := by simpa [Function.comp_def] using congrArg (List.map Prod.fst) h.links

/-- R113, R115: the station that has left the link, once its hand-offs have been taken. -/
theorem leaveLink_finish {s u : State} (same : SameStation s u) {life : Lifecycle} (holdoff : Option Nat)
    (off : life = .detached ∨ life = .linkFault) :
    LeftLink s (u.leaveLink life holdoff).finish life holdoff := by
  have kept := finish_untouched (u.leaveLink life holdoff)
  obtain ⟨requests, ⟨own, gates⟩, driven⟩ := finish_offLink (s := u.leaveLink life holdoff) ⟨off, rfl⟩
    (by simp [State.leaveLink]) (by simp [State.leaveLink])
  have loader : (u.leaveLink life holdoff).finish.loader = s.loader := kept.loader.trans same.loader
  have setup : (u.leaveLink life holdoff).finish.setup = s.setup := by rw [State.setup, loader]; rfl
  have links : (u.leaveLink life holdoff).asm.rows.map (fun r => (r.point, r.link, r.flying)) =
      s.asm.rows.map fun r => (r.point, false, none) := by
    have := congrArg (List.map fun p => ((p, false, none) : Point × Bool × Option Bool)) same.points
    simpa [State.leaveLink, Assembler.detach, Function.comp_def] using this
  exact
    { lifecycle := kept.lifecycle
      commit := kept.commit
      image := kept.image
      roster := kept.roster
      join := kept.join.trans (by rw [← same.attempts]; rfl)
      service := kept.service
      requests := requests
      slots := ⟨kept.lossSet, kept.rollTimer, kept.rollDue, kept.joinSlot, kept.partSlot, kept.busySet,
        kept.responseSlot, kept.releaseSlot⟩
      links := kept.links.trans links
      gates := ⟨own, gates⟩
      outputs := fun n o at_n hold => driven n o at_n (by rw [setup]; exact hold)
      rest := ⟨kept.pending.trans same.pending, kept.timeBase.trans same.timeBase, loader,
        kept.inputs.trans same.inputs⟩ }

/-- R113: a detach with a cause, where no RESTART session is open. -/
theorem detach_cause {s : State} (closed : s.service.restartOpen = false) (cause : FaultKind) :
    s.detach (some cause) = ((s.someTasks.report cause none).someTasks).leaveLink .detached (some 0) := by
  have service : (s.someTasks.report cause none).service = s.service :=
    (report_untouched s.someTasks cause none).service.trans (someTasks_untouched s).service
  simp only [State.detach, service, closed]
  rfl

/-- R113: a detach without a cause, where no RESTART session is open. -/
theorem detach_none {s : State} (closed : s.service.restartOpen = false) :
    s.detach none = s.someTasks.leaveLink .detached (some 0) := by
  simp only [State.detach, closed]
  rfl

/-- A report leaves a record and shows the FAULT line, and both outlast what is handed on (R157, R158). -/
theorem line_of_record {s : State} {r : FaultRecord} (h : s.fault.record = some r) : s.fault.line = true := by
  simp [FaultUnit.line, h]

theorem report_record (s : State) (cause : FaultKind) (subject : Option Subject) :
    ∃ r, (s.report cause subject).fault.record = some r := by
  rw [report_fault]
  cases h : s.fault.record <;> simp [FaultUnit.takeReport, h]

/-- R113, R157: the record before a detach with a cause stays, and a record is there after it. -/
theorem detach_cause_record {s : State} (closed : s.service.restartOpen = false) (cause : FaultKind) :
    KeepsRecord s (s.detach (some cause)).finish ∧ (s.detach (some cause)).finish.fault.line = true := by
  have toReport : KeepsRecord s (s.someTasks.report cause none) :=
    keepsRecord_carried.trans (keepsRecord_carried.someTasks s) (takeReport_keepsRecord _ _ _ _)
  have toEnd : KeepsRecord (s.someTasks.report cause none) (s.detach (some cause)).finish := by
    rw [detach_cause closed]
    exact keepsRecord_carried.trans (keepsRecord_carried.someTasks _) fun r h => finish_keepsRecord _ r h
  obtain ⟨r, hr⟩ := report_record s.someTasks cause none
  exact ⟨keepsRecord_carried.trans toReport toEnd, line_of_record (toEnd r hr)⟩

/-- R113: the station that detaches with a cause, seen from a state `s` with the same pins, queue and configuration. -/
theorem detach_cause_detached {s u : State} (same : SameStation s u) (closed : u.service.restartOpen = false)
    (cause : FaultKind) : Detached s (u.detach (some cause)).finish := by
  rw [detach_cause closed]
  refine leaveLink_finish (same.trans ?_) _ (.inl rfl)
  exact ((someTasks_untouched u).trans ((report_untouched _ cause none).trans (someTasks_untouched _))).sameStation

end Sys2Proof.Machine

/-! SUPPORT. What a completed and what a discarded image hand on, and the commands at which a station departs from the
link (R22, R23, R84, R93, R113, R115). -/

namespace Sys2Proof.Machine

/-! ### The path of a frame's command -/

/-- A command that delivers a frame closes that frame's slot (R53). -/
theorem exec_frame {c : Instr} {f : Frame} (h : c.frame? = some f) (s : State) :
    exec c s = (s.commitFrame f).answer := by
  cases c <;> simp only [Instr.frame?, Option.some.injEq, reduceCtorEq] at h <;> subst h <;> rfl

/-- R84: a LOSS that names this station detaches it, where its image is complete. -/
theorem commitFrame_namesLost {s : State} {f : Frame} (h : LivePeerFrame s f) (names : namesLost s.number f = true)
    (closed : s.service.restartOpen = false) :
    s.commitFrame f = State.detach { s with commit := s.commit.afterPeer } (some .namedLost) := by
  have names' : namesLost (State.number { s with commit := s.commit.afterPeer }) f = true := names
  have closed' : State.service { s with commit := s.commit.afterPeer } = s.service := rfl
  rw [commitFrame_live h, State.deliverLive, if_neg (by simp [h.accepted]), if_pos names', State.checkIsolation,
    detach_cause (closed' ▸ closed)]
  rfl

/-- A detach with a cause that the command has come to from a state like the one before it (R113). -/
theorem detachesWith_of_detach {c : Instr} {s u : State} {cause : FaultKind}
    (exec_eq : exec c s = (u.detach (some cause)).answer) (same : SameStation s u)
    (closed : u.service.restartOpen = false) (fault : u.fault = s.fault) (life : u.lifecycle = s.lifecycle)
    (quiet : s.Quiet → u.Quiet) : DetachesWith c s cause := by
  obtain ⟨keeps, line⟩ := detach_cause_record closed cause
  refine ⟨_, exec_eq, detach_cause_detached same closed cause, fun q absent => ?_,
    fun r hr => keeps r (fault ▸ hr), line⟩
  have written : (u.report cause none).fault.record = some ⟨cause, none, s.timeBase, s.lifecycle⟩ := by
    rw [report_fault]
    simp [FaultUnit.takeReport, fault, absent, same.timeBase, life]
  rw [detach_cause closed, someTasks_quiet (quiet q)]
  exact finish_keepsRecord _ _ (keepsRecord_carried.someTasks _ _ written)

/-! ### Departures (R93, R113, R115) -/

/-- The state in which a command departs: the image, the roster and the attempt count are those before it, and nothing
that it has handed on waits. -/
structure Departing (s u : State) : Prop where
  image    : u.image = s.image
  roster   : u.roster = s.roster
  attempts : u.join.attempts = s.join.attempts
  agenda   : u.agenda = []

theorem Departing.trans {s u v : State} (h : Departing s u) (k : Untouched u v) (agenda : v.agenda = []) :
    Departing s v :=
  ⟨k.image.trans h.image, k.roster.trans h.roster, (congrArg JoinController.attempts k.join).trans h.attempts, agenda⟩

/-- Hand-offs of a command that has none leave none. -/
theorem someTasks_agenda {s : State} (h : s.agenda = []) : s.someTasks.agenda = [] := by
  unfold State.someTasks State.draw
  simp [h, runTasks]

theorem report_agenda (s : State) (cause : FaultKind) (subject : Option Subject) :
    (s.report cause subject).agenda = s.agenda := keepsAgenda_kept.report s cause subject s.lifecycle

theorem Departing.reported {s u : State} (h : Departing s u) (cause : FaultKind) :
    Departing s (u.report cause none).someTasks :=
  (h.trans (report_untouched u cause none) ((report_agenda u cause none).trans h.agenda)).trans
    (someTasks_untouched _) (someTasks_agenda ((report_agenda u cause none).trans h.agenda))

/-- R113: a detach with a cause hands on exactly what a departure hands on. -/
theorem handsDeparture_detach {c : Instr} {s u : State} {cause : FaultKind}
    (exec_eq : exec c s = (u.detach (some cause)).answer) (departing : Departing s u)
    (closed : u.service.restartOpen = false) : HandsDeparture c s .detached (some 0) := by
  obtain ⟨image, roster, attempts, agenda⟩ :=
    (departing.trans (someTasks_untouched u) (someTasks_agenda departing.agenda)).reported cause
  refine ⟨_, image, roster, attempts, agenda, ?_⟩
  rw [exec_eq, detach_cause closed]
  rfl

/-- R115: so does the entry into LINK-FAULT. -/
theorem handsDeparture_linkFault {c : Instr} {s u : State} {cause : FaultKind}
    (exec_eq : exec c s = (u.toLinkFault cause).answer) (departing : Departing s u) :
    HandsDeparture c s .linkFault none := by
  obtain ⟨image, roster, attempts, agenda⟩ := departing.reported cause
  exact ⟨_, image, roster, attempts, agenda, exec_eq⟩

/-! ### The source changes of a whole image (R22, R23, R93) -/

/-- The points that one event turns ON or OFF together. -/
theorem handPoints_all (points : List Point) (v : Bool) :
    handPoints (points.map fun p => (p, v)) =
      if points = [] then [] else .pointsApplied (points.map fun p => (p, v)) ::
        (points.map fun p => (p, v)).map fun c => .source (.point c.1) c.2 := by
  rw [handPoints_eq]
  simp only [List.map_eq_nil_iff]

/-- The points of an image that are ON, ascending. -/
theorem mem_pointsOn (b : ImageBlock) (p : Nat) :
    p ∈ (List.range 256).filter (fun p => b.termVisible p) ↔ b.termVisible p = true := by
  rw [List.mem_filter, List.mem_range]
  exact ⟨fun h => h.2, fun h => ⟨termVisible_lt h, h⟩⟩

/-- R92, R93: the ACTIVE stations, ascending, each handed once. -/
theorem activePeers_spec (r : Roster) (on : Bool) : ∃ stations : List Station, stations.Pairwise (· < ·) ∧
    (∀ y, y ∈ stations ↔ isStation y = true ∧ r.stateOf y = .active) ∧
    activePeers r on = stations.map fun y => .source (.peer y) on := by
  refine ⟨allStations.filter fun y => r.stateOf y = .active, allStations_pairwise.filter _, fun y => ?_, ?_⟩
  · rw [List.mem_filter, mem_allStations, decide_eq_true_eq]
  · unfold activePeers
    induction allStations with
    | nil => rfl
    | cons y l ih => by_cases h : r.stateOf y = .active <;> simp [h, ih]

/-- R174: with a RESTART session open a detach is taken whole before the restart. -/
theorem detach_restart {s : State} (quiet : s.Quiet) (opened : s.service.restartOpen = true) :
    ∃ (n : Nat) (left : State),
      Takes n (departed s .detached none) left ∧ left.agenda = [] ∧ s.detach none = left.performRestart := by
  obtain ⟨m, tasks⟩ := (runTasks_takes (departed s .detached none).agenda.length (departed s .detached none)).1
  obtain ⟨n, echoes⟩ := someEchoes_takes
    (runTasks (departed s .detached none).agenda.length (departed s .detached none))
  refine ⟨m + n, _, tasks.trans echoes, (someEchoes_agenda _).trans (runTasks_agenda _), ?_⟩
  simp only [State.detach, opened, if_true, someTasks_quiet quiet]
  rfl

section
variable {s : State}

theorem Departing.of_quiet {u : State} (quiet : s.Quiet) (image : u.image = s.image) (roster : u.roster = s.roster)
    (attempts : u.join.attempts = s.join.attempts) (agenda : u.agenda = s.agenda) : Departing s u :=
  ⟨image, roster, attempts, agenda.trans quiet.1⟩

/-- R58: the eighth send failure. -/
theorem abort_departs (quiet : s.Quiet) (closed : s.service.restartOpen = false) (flies : s.commit.flight ≠ none)
    (eighth : s.commit.failures = 7) : HandsDeparture .abort s .detached (some 0) := by
  refine handsDeparture_detach (u := s.settleFailed) (cause := .sendRetries) ?_
    (.of_quiet quiet rfl rfl rfl rfl) closed
  have failures : s.settleFailed.commit.failures = 7 := eighth
  show execAbort s = _
  rw [execAbort, if_pos (Option.isSome_iff_ne_none.mpr flies), State.abortFlight, State.countFailure, failures]
  rfl

/-- A participating station marks no activity (R55, R96). -/
theorem noteActivity_participates {s : State} (h : s.lifecycle.participates = true) : s.noteActivity = s := by
  rcases participates_cases h with life | life <;> simp [State.noteActivity, life]

/-- R57: the fourth veto in a row. -/
theorem veto_departs (quiet : s.Quiet) {cells : List Waveform} {r : List Cell} {m : Malformed}
    (closed : s.service.restartOpen = false) (awake : s.loader.held = false) (part : s.lifecycle.participates = true)
    (silent : s.commit.flight = none) (fourth : s.commit.vetoes = 3) (judged : judgedCells s cells = some r)
    (bad : judgeCells r = .error m) : HandsDeparture (.veto cells) s .detached (some 0) := by
  have onMedium : s.lifecycle.onMedium = true := by
    rcases participates_cases part with life | life <;> simp [life, Lifecycle.onMedium]
  have slot : s.slotRecord? cells = some r := (slotRecord_participates part cells).trans judged
  have part' : s.frameEnds.endPacing.lifecycle.participates = true := part
  have vetoes : s.frameEnds.endPacing.commit.vetoes = 3 := fourth
  refine handsDeparture_detach (u := s.frameEnds.endPacing) (cause := .vetoBudget) ?_
    (.of_quiet quiet rfl rfl rfl rfl) closed
  show (s.vetoSlot cells).answer = _
  simp only [State.vetoSlot, awake, onMedium, silent, slot, noteActivity_participates part', part', State.ownVeto,
    vetoes, bad, Option.map_some]
  rfl

/-- R57: a frame with this station's number. -/
theorem duplicate_departs (quiet : s.Quiet) {c : Instr} {f : Frame} (carries : c.frame? = some f)
    (awake : s.loader.held = false) (onMedium : s.lifecycle.onMedium = true) (notOwn : s.commit.flownAs? f = none)
    (ok : s.received? f = some (.ok f)) (same : frameSender f = s.number) : HandsDeparture c s .linkFault none := by
  refine handsDeparture_linkFault (u := s.frameEnds.endPacing.noteActivity.vetoesCleared)
    (cause := .duplicateStation) ?_ ?_
  · have number : s.frameEnds.endPacing.noteActivity.vetoesCleared.number = s.number := by
      unfold State.vetoesCleared State.noteActivity
      split <;> split <;> rfl
    rw [exec_frame carries, State.commitFrame, if_neg (by simp [awake]), if_neg (by simp [onMedium]), notOwn]
    dsimp only
    rw [State.peerCommitted, ok]
    dsimp only
    rw [number, if_pos same]
  · refine .of_quiet quiet ?_ ?_ ?_ ?_ <;> unfold State.vetoesCleared State.noteActivity <;> split <;> split <;> rfl

/-- R95, R115: the fourth return to LISTEN. -/
theorem holdoff_departs (quiet : s.Quiet) (life : s.lifecycle = .detached)
    (due : HasReached s.join.holdoff (2 * s.setup.period + s.number)) (fourth : s.join.attempts = 3) :
    HandsDeparture .rejoinHoldoffExpiry s .linkFault none := by
  refine handsDeparture_linkFault (u := s) (cause := .attemptsExhausted) ?_ (.of_quiet quiet rfl rfl rfl rfl)
  have reached : reached s.join.holdoff s.holdoffLimit = true := reached_of_hasReached due
  show execRejoinHoldoffExpiry s = _
  simp [execRejoinHoldoffExpiry, life, reached, State.returnToListen, fourth]

end

/-- Settles O36: the source changes of a whole image and roster, then departure by departure. -/
theorem completionAndDepartureHandTheirChanges : Obligations.CompletionAndDepartureHandTheirChanges := by
  refine ⟨fun b => ⟨(List.range 256).filter fun p => b.termVisible p, List.pairwise_lt_range.filter _,
    mem_pointsOn b, handPoints_all _ true, handPoints_all _ false⟩, activePeers_spec, fun s quiet => ?_⟩
  refine ⟨fun closed => ?_, detach_restart quiet, fun closed => abort_departs quiet closed,
    fun cells r m closed awake part silent fourth => veto_departs quiet closed awake part silent fourth,
    fun x closed live => ?_, holdoff_departs quiet, fun c f => duplicate_departs quiet⟩
  · rw [detach_none closed, someTasks_quiet quiet]
    rfl
  · refine handsDeparture_detach (u := { s with commit := s.commit.afterPeer }) (cause := .namedLost) ?_
      (.of_quiet quiet rfl rfl rfl rfl) closed
    rw [exec_frame rfl, commitFrame_namesLost live (by simp [namesLost]) closed]

end Sys2Proof.Machine

/-! SUPPORT. The service unit when a requester leaves ACTIVE (R168, R169, R174). -/

namespace Sys2Proof.Machine

/-- R168: an empty response slot takes the next response, and one that is full stays. -/
theorem handResponse_eq (s : State) : s.handResponse =
    { s with asm := { s.asm with responseSlot := s.asm.responseSlot.or (nextResponse s.service) } } := by
  unfold State.handResponse nextResponse
  cases full : s.asm.responseSlot with
  | some r =>
    have same : { s.asm with responseSlot := some r } = s.asm := by rw [← full]
    simp [same]
  | none =>
    have same : { s.asm with responseSlot := none } = s.asm := by rw [← full]
    cases list : s.service.busyList with
    | cons e l => simp
    | nil =>
      cases session : s.service.session with
      | none => simp [same]
      | some ss => cases releasing : ss.releasing <;> simp [releasing, same]

/-- The response slot, the release slot and the service unit: all of a state that the answers to requests depend on. -/
def State.serviceView (s : State) : ServiceUnit × Option Response × Option Station :=
  (s.service, s.asm.responseSlot, s.asm.releaseSlot)

theorem withdrawFlight_serviceView (s : State) (claims : Origin → Bool) :
    (s.withdrawFlight claims).serviceView = s.serviceView := by
  obtain ⟨-, fl, eq⟩ := withdrawFlight_eq s claims
  rw [eq]
  rfl

theorem withdrawResponse_serviceView (s : State) :
    s.withdrawResponse.serviceView = (s.service, none, s.asm.releaseSlot) := by
  have flight := withdrawFlight_serviceView s Origin.isResponse
  simp only [State.serviceView, Prod.mk.injEq] at flight
  obtain ⟨service, -, release⟩ := flight
  unfold State.withdrawResponse
  dsimp only
  split
  · simp [State.serviceView, service, release]
  · rfl

theorem withdrawRelease_serviceView (s : State) :
    s.withdrawRelease.serviceView = (s.service, s.asm.responseSlot, none) := by
  have flight := withdrawFlight_serviceView s fun o => decide (o = .release)
  simp only [State.serviceView, Prod.mk.injEq] at flight
  obtain ⟨service, response, -⟩ := flight
  unfold State.withdrawRelease
  dsimp only
  split
  · simp [State.serviceView, service, response]
  · rfl

theorem handResponse_serviceView (s : State) :
    s.handResponse.serviceView =
      (s.service, s.asm.responseSlot.or (nextResponse s.service), s.asm.releaseSlot) := by
  rw [handResponse_eq]
  rfl

/-- R169: what is left of the service unit once its session is abandoned. -/
theorem abandonSession_serviceView (s : State) :
    s.abandonSession.serviceView =
      ({ s.service with session := none },
        (if s.asm.responseSlot = some .sessionPart then none else s.asm.responseSlot).or
          (nextResponse { s.service with session := none }), none) := by
  unfold State.abandonSession
  dsimp only
  rw [handResponse_serviceView]
  have released : ∀ u : State, u.withdrawRelease.service = u.service ∧
      u.withdrawRelease.asm.responseSlot = u.asm.responseSlot ∧ u.withdrawRelease.asm.releaseSlot = none := by
    intro u
    have view := withdrawRelease_serviceView u
    simpa only [State.serviceView, Prod.mk.injEq] using view
  obtain ⟨service, response, release⟩ := released
    (if s.asm.responseSlot = some .sessionPart then
      State.withdrawResponse { s with service := { s.service with session := none } }
      else { s with service := { s.service with session := none } })
  rw [service, response, release]
  have withdrawn := withdrawResponse_serviceView { s with service := { s.service with session := none } }
  simp only [State.serviceView, Prod.mk.injEq] at withdrawn
  obtain ⟨service', response', -⟩ := withdrawn
  split
  · rw [service', response']
  · rfl

/-- The session that a departing requester takes with it (R169); a RESTART goes on (R174). -/
def State.sessionGone (s : State) (y : Station) : Prop :=
  ∃ ss, s.service.session = some ss ∧ ss.requester = y ∧ ss.request ≠ .restart

theorem abandonSessionOf_gone {s : State} {y : Station} (h : s.sessionGone y) :
    s.abandonSessionOf y = s.abandonSession := by
  obtain ⟨ss, session, own, request⟩ := h
  simp [State.abandonSessionOf, session, own, request]

theorem abandonSessionOf_stays {s : State} {y : Station} (h : ¬ s.sessionGone y) : s.abandonSessionOf y = s := by
  unfold State.abandonSessionOf
  split
  · rename_i ss session
    exact if_neg fun own => h ⟨ss, session, own⟩
  · rfl

/-- R169: the service unit after the departure of `y`, by what is left once its session has been abandoned. -/
theorem requesterLeft_serviceView (s : State) (y : Station) :
    let a := s.abandonSessionOf y
    let service := { a.service with busyList := eraseEntry y a.service.busyList }
    (s.requesterLeft y).serviceView =
      (service, (if a.asm.responseSlot = some (.busyAnswer y) then none else a.asm.responseSlot).or
        (nextResponse service), a.asm.releaseSlot) := by
  unfold State.requesterLeft
  dsimp only
  rw [handResponse_serviceView]
  have withdrawn := withdrawResponse_serviceView { s.abandonSessionOf y with
    service := { (s.abandonSessionOf y).service with
      busyList := eraseEntry y (s.abandonSessionOf y).service.busyList } }
  simp only [State.serviceView, Prod.mk.injEq] at withdrawn
  obtain ⟨service, response, release⟩ := withdrawn
  split
  · rw [service, response, release]
  · rfl

/-- What a BUSY answer handed in for another requester than `y` says of the list without `y`. -/
theorem nextResponse_without {l : List (Station × Byte)} {y : Station}
    (other : nextResponse ⟨none, l⟩ ≠ some (.busyAnswer y)) :
    (nextResponse ⟨none, l⟩).or (nextResponse ⟨none, eraseEntry y l⟩) = nextResponse ⟨none, eraseEntry y l⟩ := by
  cases l with
  | nil => rfl
  | cons e l =>
    have ne : e.1 ≠ y := fun h => other (by simp [nextResponse, h])
    simp [eraseEntry, ne, nextResponse]

/-- R169: the departure of `y` at the service unit. -/
theorem requesterLeft_leaves (s : State) (y : Station) : RequesterLeaves s (s.requesterLeft y) y := by
  have view := requesterLeft_serviceView s y
  by_cases gone : s.sessionGone y
  · have abandoned := abandonSession_serviceView s
    rw [abandonSessionOf_gone gone] at view
    simp only [State.serviceView, Prod.mk.injEq] at abandoned view
    obtain ⟨service, response, release⟩ := abandoned
    rw [service, response, release] at view
    obtain ⟨service, response, release⟩ := view
    refine ⟨by rw [service]; rfl, fun _ => ⟨by rw [service], release⟩, fun h => absurd gone h, fun stays => ?_,
      fun leaves => ?_⟩
    · obtain ⟨z, other, slot⟩ | ⟨not, -⟩ := stays
      · rw [response, slot]
        simp [other]
      · exact absurd gone not
    · rw [response, service]
      have emptied : ∀ r : Option Response, r ≠ some (.busyAnswer y) → r = nextResponse ⟨none, s.service.busyList⟩ →
          r.or (nextResponse ⟨none, eraseEntry y s.service.busyList⟩) =
            nextResponse ⟨none, eraseEntry y s.service.busyList⟩ := by
        rintro r other rfl
        exact nextResponse_without other
      have next : ∀ r : Option Response, r = nextResponse ⟨none, s.service.busyList⟩ →
          (if r = some (.busyAnswer y) then none else r).or (nextResponse ⟨none, eraseEntry y s.service.busyList⟩) =
            nextResponse ⟨none, eraseEntry y s.service.busyList⟩ := by
        intro r hr
        split
        · rfl
        · rename_i other
          exact emptied r other hr
      cases slot : s.asm.responseSlot with
      | none => exact next _ (by simp)
      | some r =>
        cases r with
        | sessionPart => exact next _ (by simp)
        | busyAnswer z =>
          have own : z = y := by
            by_contra other
            exact leaves (.inl ⟨z, other, slot⟩)
          simp [own]
  · rw [abandonSessionOf_stays gone] at view
    simp only [State.serviceView, Prod.mk.injEq] at view
    obtain ⟨service, response, release⟩ := view
    refine ⟨by rw [service]; rfl, fun h => absurd h gone, fun _ => ⟨by rw [service], release⟩, fun stays => ?_,
      fun leaves => ?_⟩
    · rw [response]
      obtain ⟨z, other, slot⟩ | ⟨-, slot⟩ := stays
      · simp [slot, other]
      · simp [slot]
    · rw [response, service]
      cases slot : s.asm.responseSlot with
      | none => rfl
      | some r =>
        cases r with
        | sessionPart => exact absurd (.inr ⟨gone, slot⟩) leaves
        | busyAnswer z =>
          have own : z = y := by
            by_contra other
            exact leaves (.inl ⟨z, other, slot⟩)
          simp [own]

/-- The service view is all that `RequesterLeaves` reads. -/
theorem RequesterLeaves.of_view {s s' t t' : State} {y : Station} (h : RequesterLeaves s t y)
    (before : s'.serviceView = s.serviceView) (after : t'.serviceView = t.serviceView) : RequesterLeaves s' t' y := by
  simp only [State.serviceView, Prod.mk.injEq] at before after
  obtain ⟨service, response, release⟩ := before
  obtain ⟨service', response', release'⟩ := after
  unfold RequesterLeaves at h ⊢
  rw [service, response, release, service', response', release']
  exact h

/-- R174: no departure opens a RESTART. -/
theorem requesterLeft_restartOpen {s : State} {y : Station} (closed : s.service.restartOpen = false) :
    (s.requesterLeft y).service.restartOpen = false := by
  obtain ⟨-, gone, stays, -⟩ := requesterLeft_leaves s y
  by_cases h : s.sessionGone y
  · simp [ServiceUnit.restartOpen, (gone h).1]
  · rw [ServiceUnit.restartOpen, (stays h).1]
    exact closed

end Sys2Proof.Machine

/-! SUPPORT. The commit of an accepted live frame whole: its effects on every block, the hand-offs it leaves waiting,
and the detach that R112 may bring (R54, R79 to R90, R100 to R102, R112, R169). -/

namespace Sys2Proof.Machine

/-! ### Rosters -/

/-- Two changes of one entry in turn. -/
theorem Roster.update_update (r : Roster) (x : Station) (f g : RosterEntry → RosterEntry) :
    Roster.update (r.update x f) x g = r.update x fun e => g (f e) := by
  unfold Roster.update
  split
  · rfl
  · exact List.modify_modify_eq ..

/-- R85: where the sender of a frame has become ACTIVE by it, its silence timer starts as well. -/
theorem breakSilence_update {own x : Station} (other : x ≠ own) (r : Roster) (f : RosterEntry → RosterEntry) :
    breakSilence own x (r.update x f) =
      r.update x fun e => if (f e).state = .active then { f e with silence := some 0 } else f e := by
  unfold breakSilence
  rw [if_neg other, Roster.update_update]

theorem breakSilence_own (own : Station) (r : Roster) : breakSilence own own r = r := if_pos rfl

/-- R85: breaking a silence changes no entry's state and stops no silence timer. -/
theorem breakSilence_entry (own x : Station) (r : Roster) (y : Station) :
    Roster.entry (breakSilence own x r) y = r.entry y ∨
      Roster.entry (breakSilence own x r) y = { r.entry y with silence := some 0 } := by
  unfold breakSilence
  split
  · exact .inl rfl
  · rw [Roster.entry_update]
    split
    · rename_i h
      rw [h.1]
      split
      · exact .inr rfl
      · exact .inl rfl
    · exact .inl rfl

theorem breakSilence_stateOf (own x : Station) (r : Roster) (y : Station) :
    Roster.stateOf (breakSilence own x r) y = r.stateOf y := by
  unfold Roster.stateOf
  rcases breakSilence_entry own x r y with h | h <;> rw [h]

/-- R112: the heard peers are no fewer where every heard peer is heard still. -/
theorem heardPeers_le {own : Station} {r t : Roster}
    (h : ∀ y, y ≠ own → r.stateOf y = .active → (r.entry y).silence.isSome →
      t.stateOf y = .active ∧ (t.entry y).silence.isSome) : heardPeers own r ≤ heardPeers own t := by
  unfold heardPeers
  refine List.Sublist.length_le (List.monotone_filter_right _ fun y hy => ?_)
  simp only [Bool.and_eq_true, decide_eq_true_eq] at hy ⊢
  obtain ⟨⟨other, active⟩, silence⟩ := hy
  obtain ⟨active', silence'⟩ := h y other active silence
  exact ⟨⟨other, active'⟩, silence'⟩

/-- A heard peer whose entry a change leaves, or whose silence it breaks, is heard still. -/
theorem heardPeers_breakSilence {own x : Station} {r t : Roster}
    (h : ∀ y, y ≠ own → r.stateOf y = .active → (r.entry y).silence.isSome →
      t.stateOf y = .active ∧ (t.entry y).silence.isSome) :
    heardPeers own r ≤ heardPeers own (breakSilence own x t) := by
  refine heardPeers_le fun y other active silence => ?_
  obtain ⟨active', silence'⟩ := h y other active silence
  refine ⟨(breakSilence_stateOf own x t y).trans active', ?_⟩
  rcases breakSilence_entry own x t y with e | e <;> rw [e]
  · exact silence'
  · rfl

/-- R112, R83: a RELEASE leaves no fewer heard peers. -/
theorem heardPeers_release (own x y : Station) (timed : Bool) (r : Roster) :
    heardPeers own r ≤ heardPeers own (breakSilence own x (rosterEffect own timed (.release x y) r)) := by
  refine heardPeers_breakSilence fun z _ active silence => ?_
  have entry : Roster.entry (r.update y RosterEntry.release) z = r.entry z := by
    rw [Roster.entry_update]
    split
    · rename_i h
      have notLost : (r.entry z).state ≠ .lost := by
        unfold Roster.stateOf at active
        simp [active]
      rw [← h.1]
      exact if_neg notLost
    · rfl
  show Roster.stateOf (r.update y RosterEntry.release) z = .active ∧ _
  rw [Roster.stateOf, rosterEffect, entry]
  exact ⟨active, silence⟩

/-- R112, R81: an ENTRY of a peer leaves no fewer heard peers. -/
theorem heardPeers_entry {own x : Station} (other : x ≠ own) (p : Nat) (items : List Item) (r : Roster) :
    heardPeers own r ≤ heardPeers own (breakSilence own x (rosterEffect own true (.entry x p items) r)) := by
  refine heardPeers_breakSilence fun z _ active silence => ?_
  rw [Roster.stateOf, rosterEffect, Roster.entry_update]
  split
  · simp [RosterEntry.enter, other]
  · exact ⟨active, silence⟩

/-! ### The effects of an accepted live frame -/

/-- R72: the LOSS set after an accepted frame: its sender, where it is a peer, and the target of a LOSS have left it. -/
def lossSetAfter (own : Station) (f : Frame) (l : List Station) : List Station :=
  let heard := if frameSender f = own then l else eraseStation (frameSender f) l
  match f with
  | .loss _ t => eraseStation t heard
  | _ => heard

/-- R54: what an accepted frame does to the image, the roster, the stray set and the LOSS set. -/
theorem applyLiveFrame_eq (s : State) (f : Frame) : s.applyLiveFrame f =
    { s with
      image := s.image.applyLive s.roster f
      roster := breakSilence s.number (frameSender f) (rosterEffect s.number true f s.roster)
      join := { s.join with stray := eraseEntry (frameSender f) s.join.stray }
      asm := { s.asm with lossSet := lossSetAfter s.number f s.asm.lossSet } } := by
  have number : ∀ i r j, State.number { s with image := i, roster := r, join := j } = s.number := fun _ _ _ => rfl
  unfold State.applyLiveFrame lossSetAfter
  simp only [number]
  by_cases own : frameSender f = s.number
  · simp only [if_pos own]
    cases f <;> rfl
  · simp only [if_neg own]
    cases f <;> rfl

/-- The state after an accepted frame at every block, its hand-offs not yet made (R54). -/
def State.effectsOf (s : State) (f : Frame) : State := ((s.applyLiveFrame f).respond s.roster f).serve s.roster f

theorem takeLiveFrame_eq (s : State) (f : Frame) :
    s.takeLiveFrame f = (s.effectsOf f).post ((s.effectsOf f).liveHandOffs s f) := rfl

/-- R54: all that an accepted frame other than a request changes, with what the respondent and the service unit make of
their own parts left open. -/
theorem effectsOf_eq (s : State) {f : Frame} (noRequest : ∀ x y tag q, f ≠ .svcReq x y tag q) :
    FlightKept s (s.effectsOf f) ∧ s.effectsOf f = { s with
      commit := { s.commit with flight := (s.effectsOf f).commit.flight }
      image := s.image.applyLive s.roster f
      roster := breakSilence s.number (frameSender f) (rosterEffect s.number true f s.roster)
      join := { s.join with
        stray := eraseEntry (frameSender f) s.join.stray, snapshot := (s.effectsOf f).join.snapshot }
      asm := { s.asm with
        lossSet := lossSetAfter s.number f s.asm.lossSet
        partSlot := (s.effectsOf f).asm.partSlot
        busySet := (s.effectsOf f).asm.busySet
        responseSlot := (s.effectsOf f).asm.responseSlot
        releaseSlot := (s.effectsOf f).asm.releaseSlot }
      service := (s.effectsOf f).service } := by
  obtain ⟨keptR, respond⟩ := respond_only (s.applyLiveFrame f) s.roster f
  obtain ⟨keptS, serve⟩ := serve_only ((s.applyLiveFrame f).respond s.roster f) s.roster noRequest
  have apply := applyLiveFrame_eq s f
  have start : FlightKept s (s.applyLiveFrame f) := .of (by rw [apply])
  refine ⟨(start.trans keptR).trans keptS, ?_⟩
  change s.effectsOf f = _ at serve
  generalize s.effectsOf f = e at serve ⊢
  generalize (s.applyLiveFrame f).respond s.roster f = u at respond serve
  rw [apply] at respond
  rw [respond] at serve
  rw [serve]

/-- R25, R54: the image and the roster after any accepted frame, a request too. -/
theorem effectsOf_replica (s : State) (f : Frame) :
    (s.effectsOf f).image = s.image.applyLive s.roster f ∧
    (s.effectsOf f).roster = breakSilence s.number (frameSender f) (rosterEffect s.number true f s.roster) := by
  have keeps := serve_keepsLink ((s.applyLiveFrame f).respond s.roster f) s.roster f
  obtain ⟨-, respond⟩ := respond_only (s.applyLiveFrame f) s.roster f
  refine ⟨keeps.image.trans ?_, keeps.roster.trans ?_⟩ <;> rw [respond, applyLiveFrame_eq]

/-! ### The detach of R112 -/

/-- R112: whether the commit of a frame leaves the station hearing fewer peers than strays. -/
theorem isolatedSince_iff {s t : State} {x : Station} {after : Roster} (loader : t.loader = s.loader)
    (roster : t.roster = after) (stray : t.join.stray = eraseEntry x s.join.stray) :
    t.isolatedSince s.roster = true ↔ FallsOut s x after := by
  have number : t.number = s.number := congrArg Loader.number loader
  simp only [State.isolatedSince, State.outnumbered, FallsOut, number, roster, stray, Bool.and_eq_true,
    decide_eq_true_eq]

section
variable {s : State} {f : Frame}

/-- This station when the slot of a peer's frame has closed on a well-formed frame (R46, R57, R60). -/
def State.slotClosed (s : State) : State := { s with commit := s.commit.afterPeer }

/-- The roster after an accepted live frame (R79, R85). -/
def State.rosterAfter (s : State) (f : Frame) : Roster :=
  breakSilence s.number (frameSender f) (rosterEffect s.number true f s.roster)

theorem takeLiveFrame_isolated (noRequest : ∀ x y tag q, f ≠ .svcReq x y tag q) :
    (s.slotClosed.takeLiveFrame f).isolatedSince s.roster = true ↔ FallsOut s (frameSender f) (s.rosterAfter f) := by
  obtain ⟨-, eq⟩ := effectsOf_eq s.slotClosed noRequest
  refine isolatedSince_iff ?_ ?_ ?_ <;> rw [takeLiveFrame_eq] <;> simp only [State.post_loader, State.post_roster,
    State.post_join] <;> rw [eq] <;> rfl

/-- R54: the commit of a peer's frame after which the station goes on. -/
theorem commitFrame_effects (h : LivePeerFrame s f) (notLost : namesLost s.number f = false)
    (noRequest : ∀ x y tag q, f ≠ .svcReq x y tag q) (stays : ¬ FallsOut s (frameSender f) (s.rosterAfter f)) :
    s.commitFrame f = { s.slotClosed.effectsOf f with
      agenda := s.agenda ++ handedOn s f (decide (s.lifecycle = .active)) (s.image.applyLive s.roster f)
        (s.rosterAfter f) } := by
  obtain ⟨-, eq⟩ := effectsOf_eq s.slotClosed noRequest
  have isolated : (s.slotClosed.takeLiveFrame f).isolatedSince s.roster = false :=
    Bool.eq_false_iff.mpr fun i => stays ((takeLiveFrame_isolated noRequest).mp i)
  have agenda := takeLiveFrame_agenda s.slotClosed f
  have image : (s.slotClosed.takeLiveFrame f).image = s.image.applyLive s.roster f := by
    rw [takeLiveFrame_eq, State.post_image, eq]; rfl
  have roster : (s.slotClosed.takeLiveFrame f).roster = s.rosterAfter f := by
    rw [takeLiveFrame_eq, State.post_roster, eq]; rfl
  have isolated' : (s.slotClosed.takeLiveFrame f).isolatedSince s.slotClosed.roster = false := isolated
  rw [isolated', image, roster, Bool.not_false, Bool.and_true] at agenda
  rw [commitFrame_taken h notLost rfl isolated]
  change s.slotClosed.takeLiveFrame f = _
  have whole : s.slotClosed.takeLiveFrame f =
      { s.slotClosed.effectsOf f with agenda := (s.slotClosed.takeLiveFrame f).agenda } := rfl
  rw [whole, agenda]
  rfl

/-- R174: no accepted frame but a request opens a RESTART. -/
theorem serve_restartOpen (before : Roster) (noRequest : ∀ x y tag q, f ≠ .svcReq x y tag q)
    (closed : s.service.restartOpen = false) : (s.serve before f).service.restartOpen = false := by
  unfold State.serve
  split
  · exact absurd rfl (noRequest _ _ _ _)
  · split
    · split
      · exact requesterLeft_restartOpen closed
      · exact closed
    · exact closed

/-- R174: so the commit of such a frame leaves none open. -/
theorem takeLiveFrame_restartOpen (noRequest : ∀ x y tag q, f ≠ .svcReq x y tag q)
    (closed : s.service.restartOpen = false) : (s.takeLiveFrame f).service.restartOpen = false := by
  refine serve_restartOpen _ noRequest ?_
  rw [(respond_only _ _ _).2, applyLiveFrame_eq]
  exact closed

/-- R112: the commit of a peer's frame after which the strays outnumber the heard peers. -/
theorem commitFrame_fallsOff {c : Instr} (carries : c.frame? = some f) (h : LivePeerFrame s f)
    (notLost : namesLost s.number f = false) (noRequest : ∀ x y tag q, f ≠ .svcReq x y tag q)
    (falls : FallsOut s (frameSender f) (s.rosterAfter f)) (closed : s.service.restartOpen = false) : FallsOff c s := by
  obtain ⟨-, eq⟩ := effectsOf_eq s.slotClosed noRequest
  have isolated := (takeLiveFrame_isolated noRequest).mpr falls
  have closed' : (s.slotClosed.takeLiveFrame f).service.restartOpen = false :=
    takeLiveFrame_restartOpen noRequest closed
  have same : SameStation s (s.slotClosed.takeLiveFrame f) := by
    rw [takeLiveFrame_eq, State.post, eq]
    exact ⟨rfl, rfl, rfl, rfl, rfl, rfl⟩
  have fault : (s.slotClosed.takeLiveFrame f).fault = s.fault := by
    rw [takeLiveFrame_eq, State.post_fault, eq]
    rfl
  have live : (s.slotClosed.takeLiveFrame f).lifecycle.participates = true ∧
      (s.slotClosed.takeLiveFrame f).image.standing = .complete := by
    rw [takeLiveFrame_eq, State.post_lifecycle, State.post_image, eq]
    exact ⟨h.participates, h.complete⟩
  have detaches : s.commitFrame f = (s.slotClosed.takeLiveFrame f).detach (some .namedLost) := by
    have notLost' : namesLost s.slotClosed.number f = false := notLost
    rw [commitFrame_live h]
    change (s.slotClosed.deliverLive f false).checkIsolation s.roster = _
    rw [State.deliverLive, if_neg (by simp [State.slotClosed, h.accepted]), notLost', if_neg (by simp),
      State.checkIsolation, live.1, live.2, isolated]
    rfl
  obtain ⟨keeps, line⟩ := detach_cause_record closed' .namedLost
  refine ⟨_, (exec_frame carries s).trans (congrArg State.answer detaches),
    detach_cause_detached same closed' .namedLost, line, fun r hr => ?_⟩
  exact keeps r (fault ▸ hr)

end

/-! ### The frames of an ACTIVE peer without roster effect (R8 to R12, R85, R87) -/

/-- R12: the windows after the items of a frame, each PULSE naming a count-class point. -/
theorem startWindows_spec {items : List Item} : ∀ {windows : List (Option Nat)},
    (∀ p n, .pulse p n ∈ items → 224 ≤ p) →
    (startWindows windows items).length = windows.length ∧
    ∀ i, i < windows.length →
      ((∃ n, .pulse (224 + i) n ∈ items) → (startWindows windows items)[i]? = some (some 0)) ∧
      ((∀ n, .pulse (224 + i) n ∉ items) → (startWindows windows items)[i]? = windows[i]?) := by
  induction items with
  | nil => exact fun _ => ⟨rfl, fun i _ => ⟨by simp, fun _ => rfl⟩⟩
  | cons item items ih =>
    intro windows named
    have later : ∀ p n, Item.pulse p n ∈ items → 224 ≤ p := fun p n h => named p n (List.mem_cons_of_mem _ h)
    have other : (∀ p n, item ≠ .pulse p n) → startWindows windows (item :: items) = startWindows windows items := by
      intro h
      cases item with
      | pulse p n => exact absurd rfl (h p n)
      | _ => rfl
    by_cases pulse : ∃ p n, item = .pulse p n
    · obtain ⟨p, n, rfl⟩ := pulse
      have low : 224 ≤ p := named p n (List.mem_cons_self ..)
      obtain ⟨j, rfl⟩ : ∃ j, p = 224 + j := ⟨p - 224, (Nat.add_sub_cancel' low).symm⟩
      have step : startWindows windows (.pulse (224 + j) n :: items) =
          startWindows (windows.set j (some 0)) items := by
        simp [startWindows]
      obtain ⟨len, spec⟩ := ih (windows := windows.set j (some 0)) later
      rw [step]
      refine ⟨len.trans (List.length_set ..), fun i inside => ?_⟩
      obtain ⟨starts, stays⟩ := spec i (by simpa using inside)
      constructor
      · rintro ⟨n', mem⟩
        by_cases again : ∃ k, Item.pulse (224 + i) k ∈ items
        · exact starts again
        · have first : i = j := by
            rcases List.mem_cons.mp mem with e | mem
            · simpa using (Item.pulse.inj e).1
            · exact absurd ⟨n', mem⟩ again
          rw [stays (not_exists.mp again), first, List.getElem?_set_self (first ▸ inside)]
      · intro none
        have ne : j ≠ i := fun e => none n (e ▸ List.mem_cons_self ..)
        rw [stays fun k h => none k (List.mem_cons_of_mem _ h), List.getElem?_set_ne ne]
    · have plain : ∀ p n, item ≠ .pulse p n := fun p n e => pulse ⟨p, n, e⟩
      have mem : ∀ p n, Item.pulse p n ∈ item :: items ↔ Item.pulse p n ∈ items := fun p n => by
        simp [Ne.symm (plain p n)]
      simp only [other plain, mem]
      exact ih later

/-- R112: a frame of an ACTIVE peer that changes no roster entry's state leaves no fewer heard peers. -/
theorem stays_of_silence {s : State} {x : Station} :
    ¬ FallsOut s x (s.roster.update x fun e => { e with silence := some 0 }) := fun h =>
  absurd h.1 (Nat.not_lt.mpr (heardPeers_silence s.number x s.roster))

/-- The commit of an ACTIVE peer's UPDATE (R8 to R12, R85). -/
theorem exec_update_peer {s : State} {x : Station} {items : List Item} (h : LivePeerFrame s (.update x items)) :
    let heardFrom := s.roster.update x fun e => { e with silence := some 0 }
    let image := s.image.applyLive s.roster (.update x items)
    exec (.update x items) s = State.answer { s.heard (.update x items) with
      image := image
      roster := heardFrom
      agenda := s.agenda ++ handedOn s (.update x items) (decide (s.lifecycle = .active)) image heardFrom } := by
  have active := accepts_active h.accepted rfl (by simp)
  have after : s.rosterAfter (.update x items) = s.roster.update x fun e => { e with silence := some 0 } :=
    breakSilence_active h.other active
  dsimp only
  rw [exec_frame rfl, commitFrame_effects h rfl (by simp) (by rw [after]; exact stays_of_silence), after]
  have other : ¬ x = s.number := h.other
  have effects : s.slotClosed.effectsOf (.update x items) = s.slotClosed.applyLiveFrame (.update x items) := rfl
  rw [effects, applyLiveFrame_eq]
  have roster : breakSilence s.slotClosed.number x (rosterEffect s.slotClosed.number true (.update x items)
      s.slotClosed.roster) = _ := after
  have loss : lossSetAfter s.slotClosed.number (.update x items) s.slotClosed.asm.lossSet =
      eraseStation x s.asm.lossSet := if_neg other
  simp only [frameSender, roster, loss]
  rfl

/-- Settles O19: the windows, the UPDATE, and the frames that carry nothing for the link blocks. -/
theorem peerFramesApplyAndBreakSilence : Obligations.PeerFramesApplyAndBreakSilence := by
  refine ⟨fun windows items named => ?_, fun s x => ⟨fun items h => ?_,
    fun c y p k n body tag status payload f kind carries h => ?_⟩⟩
  · obtain ⟨len, spec⟩ := startWindows_spec (windows := windows) named
    exact ⟨len, fun i inside => ⟨fun n mem => (spec i inside).1 ⟨n, mem⟩, (spec i inside).2⟩⟩
  · rw [exec_update_peer h]
    exact answer_settlesBy _
  · have plain : plainFrame f = true ∧ frameSender f = x ∧ (s.afterHeard f).serve s.roster f = s.afterHeard f := by
      rcases kind with rfl | rfl | rfl | rfl <;> obtain rfl := Option.some.inj carries <;> exact ⟨rfl, rfl, rfl⟩
    obtain ⟨plain, sender, serve⟩ := plain
    rw [exec_frame carries, commitFrame_plain h plain, serve, State.afterHeard, sender]
    exact answer_settlesBy _

end Sys2Proof.Machine

/-! SUPPORT. The commits of a peer's RELEASE, ENTRY, LOSS and JOIN, and two stations that take the same frame (R14 to
R18, R25, R80 to R84, R100 to R102, R106, R169). -/

namespace Sys2Proof.Machine

/-! ### What the respondent holds (R100 to R102, R106) -/

/-- The snapshot, the respondent slot and the joiners owed a BUSY: all that this station holds as a respondent. -/
def State.respondView (s : State) : Option Snapshot × Bool × List Station :=
  (s.join.snapshot, s.asm.partSlot, s.asm.busySet)

theorem RespondOnly.serviceView {s t : State} (h : RespondOnly s t) : t.serviceView = s.serviceView := by
  rw [h.2]
  rfl

theorem ServiceOnly.respondView {s t : State} (h : ServiceOnly s t) : t.respondView = s.respondView := by
  rw [h.2]
  rfl

theorem dropSnapshotFor_respondView (s : State) (j : Station) :
    (s.dropSnapshotFor j).respondView = (snapshotWithout s j, partSlotWithout s j, s.asm.busySet) := by
  obtain ⟨-, fl, eq⟩ := dropSnapshotFor_eq s j
  rw [eq]
  rfl

theorem withdrawBusy_respondView (s : State) (j : Station) :
    (s.withdrawBusy j).respondView = (s.join.snapshot, s.asm.partSlot, eraseStation j s.asm.busySet) := by
  obtain ⟨-, fl, eq⟩ := withdrawBusy_eq s j
  rw [eq]
  rfl

/-- R102, R106: a respondent that owes `j` nothing any more. -/
theorem dropped_respondView (s : State) (j : Station) : ((s.dropSnapshotFor j).withdrawBusy j).respondView =
    (snapshotWithout s j, partSlotWithout s j, eraseStation j s.asm.busySet) := by
  obtain ⟨-, fl, eq⟩ := dropSnapshotFor_eq s j
  rw [withdrawBusy_respondView, eq]

/-- R102: a snapshot that stays is for another joiner. -/
theorem snapshotWithout_joiner {s : State} {y : Station} {sn : Snapshot} (h : snapshotWithout s y = some sn) :
    sn.joiner ≠ y := by
  obtain ⟨-, other⟩ := Option.filter_eq_some_iff.mp h
  simpa using other

/-- R102: where a snapshot stays, so does its part. -/
theorem partSlotWithout_kept {s : State} {y : Station} {sn : Snapshot} (h : snapshotWithout s y = some sn) :
    partSlotWithout s y = s.asm.partSlot := by
  obtain ⟨snapshot, -⟩ := Option.filter_eq_some_iff.mp h
  simp [partSlotWithout, snapshot, snapshotWithout_joiner h]

/-- R100, R101, R106: an ACTIVE station at a JOIN, by what the roster says of the respondent. -/
theorem respondToJoin_respondView (s : State) (j named : Station) :
    (s.respondToJoin j named).respondView =
      if respondentOf s.roster named = some s.number then
        match snapshotWithout s j with
        | none => (some ⟨j, rosterCopy s.roster, s.image.points, 0⟩, true, eraseStation j s.asm.busySet)
        | some sn => (some sn, partSlotWithout s j, insertStation j (eraseStation j s.asm.busySet))
      else (snapshotWithout s j, partSlotWithout s j, eraseStation j s.asm.busySet) := by
  have view := dropped_respondView s j
  obtain ⟨-, eq⟩ := (dropSnapshotFor_only s j).trans (withdrawBusy_only _ j)
  have roster : ((s.dropSnapshotFor j).withdrawBusy j).roster = s.roster := by rw [eq]
  have number : ((s.dropSnapshotFor j).withdrawBusy j).number = s.number := by rw [eq]; rfl
  have image : ((s.dropSnapshotFor j).withdrawBusy j).image = s.image := by rw [eq]
  unfold State.respondToJoin
  dsimp only
  rw [roster, number]
  generalize (s.dropSnapshotFor j).withdrawBusy j = u at view roster image ⊢
  simp only [State.respondView, Prod.mk.injEq] at view
  obtain ⟨snapshot, part, busy⟩ := view
  split
  · rw [snapshot]
    cases h : snapshotWithout s j with
    | none => simp [State.takeSnapshot, State.respondView, roster, image, busy]
    | some sn => simp [State.respondView, snapshot, h, part, busy]
  · simp [State.respondView, snapshot, part, busy]

/-! ### The commit of a peer's frame, whole -/

section
variable {s : State} {f : Frame}

/-- R54: all that the commit of a peer's frame changes where the station goes on; what it holds as a respondent and for
the requesters is what the respondent and the service unit make of it. -/
theorem commitFrame_peer (h : LivePeerFrame s f) (notLost : namesLost s.number f = false)
    (noRequest : ∀ x y tag q, f ≠ .svcReq x y tag q) (stays : ¬ FallsOut s (frameSender f) (s.rosterAfter f)) :
    FlightKept s (s.commitFrame f) ∧
    s.commitFrame f = { s.heard f with
      commit := { s.commit.afterPeer with flight := (s.commitFrame f).commit.flight }
      image := s.image.applyLive s.roster f
      roster := s.rosterAfter f
      join := { (s.heard f).join with snapshot := (s.commitFrame f).join.snapshot }
      asm := { s.asm with
        lossSet := lossSetAfter s.number f s.asm.lossSet
        partSlot := (s.commitFrame f).asm.partSlot
        busySet := (s.commitFrame f).asm.busySet
        responseSlot := (s.commitFrame f).asm.responseSlot
        releaseSlot := (s.commitFrame f).asm.releaseSlot }
      service := (s.commitFrame f).service
      agenda := s.agenda ++ handedOn s f (decide (s.lifecycle = .active)) (s.image.applyLive s.roster f)
        (s.rosterAfter f) } ∧
    (s.commitFrame f).respondView = ((s.slotClosed.applyLiveFrame f).respond s.roster f).respondView ∧
    (s.commitFrame f).serviceView =
      (((s.slotClosed.applyLiveFrame f).respond s.roster f).serve s.roster f).serviceView := by
  obtain ⟨kept, eq⟩ := effectsOf_eq s.slotClosed noRequest
  have served := serve_only ((s.slotClosed.applyLiveFrame f).respond s.roster f) s.roster noRequest
  rw [commitFrame_effects h notLost noRequest stays]
  refine ⟨kept, ?_, served.respondView, rfl⟩
  change s.slotClosed.effectsOf f = _ at eq
  generalize s.slotClosed.effectsOf f = e at eq ⊢
  rw [eq]
  rfl

end

/-! ### RELEASE and ENTRY of a peer -/

section
variable {s : State} {x : Station}

/-- R81: the roster after the ENTRY of a peer. -/
theorem rosterAfter_entry {p : Nat} {items : List Item} (other : x ≠ s.number) :
    s.rosterAfter (.entry x p items) = s.roster.update x fun _ => ⟨.active, p, some 0, none⟩ := by
  show breakSilence s.number x (s.roster.update x fun e => e.enter p (true && decide (x ≠ s.number))) = _
  rw [breakSilence_update other]
  refine Roster.update_congr ?_
  simp [RosterEntry.enter]

/-- Settles O25: the RELEASE, which reaches neither the respondent nor the service unit, then the ENTRY, at which the
respondent drops its snapshot for the sender. -/
theorem peerReleaseAndEntryTakeEffect : Obligations.PeerReleaseAndEntryTakeEffect := by
  refine fun s x y p items => ⟨fun h => ?_, fun h => ?_⟩
  · have stays : ¬ FallsOut s x (s.rosterAfter (.release x y)) := fun falls =>
      absurd falls.1 (Nat.not_lt.mpr (heardPeers_release s.number x y true s.roster))
    have effects : s.slotClosed.effectsOf (.release x y) = s.slotClosed.applyLiveFrame (.release x y) := rfl
    have loss : lossSetAfter s.slotClosed.number (.release x y) s.slotClosed.asm.lossSet =
        eraseStation x s.asm.lossSet := if_neg h.other
    have commit := commitFrame_effects h rfl (by simp) stays
    rw [effects, applyLiveFrame_eq, loss] at commit
    rw [exec_frame rfl, commit]
    exact answer_settlesBy _
  · have stays : ¬ FallsOut s x (s.rosterAfter (.entry x p items)) := fun falls =>
      absurd falls.1 (Nat.not_lt.mpr (heardPeers_entry h.other p items s.roster))
    have loss : lossSetAfter s.number (.entry x p items) s.asm.lossSet = eraseStation x s.asm.lossSet := if_neg h.other
    obtain ⟨kept, eq, respond, serve⟩ := commitFrame_peer h rfl (by simp) stays
    have roster : s.rosterAfter (.entry x p items) = s.roster.update x fun _ => ⟨.active, p, some 0, none⟩ :=
      rosterAfter_entry h.other
    have respond' := respond.trans (dropSnapshotFor_respondView (s.slotClosed.applyLiveFrame (.entry x p items)) x)
    have serve' : (s.commitFrame (.entry x p items)).serviceView = s.serviceView :=
      (serve.trans (dropSnapshotFor_only _ x).serviceView).trans (by rw [applyLiveFrame_eq]; rfl)
    rw [applyLiveFrame_eq] at respond'
    refine ⟨s.commitFrame (.entry x p items), by rw [exec_frame rfl]; exact answer_settlesBy _, kept, ?_, ?_⟩
    all_goals
      generalize s.commitFrame (.entry x p items) = e at eq respond' serve'
      simp only [State.respondView, State.serviceView, Prod.mk.injEq] at respond' serve'
      obtain ⟨snapshot, part, busy⟩ := respond'
      obtain ⟨service, response, release⟩ := serve'
    · rw [snapshot]
      exact fun sn hsn => snapshotWithout_joiner hsn
    · rw [snapshot, part, busy, service, response, release, loss, roster] at eq
      exact eq

/-! ### LOSS of a peer -/

/-- R82: the roster after a LOSS says of its target that it is not ACTIVE. -/
theorem rosterAfter_loss_stateOf (s : State) (x y : Station) : (s.rosterAfter (.loss x y)).stateOf y ≠ .active := by
  show Roster.stateOf (breakSilence s.number x (s.roster.update y RosterEntry.lose)) y ≠ .active
  rw [breakSilence_stateOf, Roster.stateOf, Roster.entry_update]
  split
  · unfold RosterEntry.lose
    split
    · simp
    · simp
    · rename_i h; simp [h]
    · rename_i h; simp [h]
  · rename_i h
    intro active
    obtain ⟨low, high⟩ := Roster.stands (r := s.roster) (x := y) (by unfold Roster.stateOf; simp [active])
    exact h ⟨rfl, low, high⟩

/-- R165, R169: what the service unit makes of the station that a frame takes out of ACTIVE. -/
theorem serviceFollows_of_serve {s e u : State} {y : Station} {f : Frame} (kept : FlightKept s e)
    (departs : departing? f = some y) (noRequest : ∀ x t tag q, f ≠ .svcReq x t tag q)
    (before : u.serviceView = s.serviceView) (gone : s.roster.stateOf y = .active → u.roster.stateOf y ≠ .active)
    (after : e.serviceView = (u.serve s.roster f).serviceView) :
    ServiceFollows s e y (s.roster.stateOf y = .active) := by
  have serve : u.serve s.roster f =
      if s.roster.stateOf y = .active && u.roster.stateOf y ≠ .active then u.requesterLeft y else u := by
    cases f <;> simp only [departing?, Option.some.injEq, reduceCtorEq] at departs <;> subst departs <;> rfl
  refine ⟨kept, fun active => ?_, fun stays => ?_⟩
  · rw [serve, if_pos (by simp [active, gone active])] at after
    exact RequesterLeaves.of_view (requesterLeft_leaves u y) before.symm after
  · rw [serve, if_neg (by simp [stays])] at after
    have same := after.trans before
    simpa only [State.serviceView, Prod.mk.injEq] using same

/-- R102: the respondent at a LOSS, by whether its target was on the link. -/
theorem respond_loss_respondView (u : State) (before : Roster) (x y : Station) :
    let onLink := before.stateOf y = .active ∨ before.stateOf y = .joining
    (u.respond before (.loss x y)).respondView =
      (if onLink then snapshotWithout u y else u.join.snapshot,
        if onLink then partSlotWithout u y else u.asm.partSlot,
        if onLink then eraseStation y u.asm.busySet else u.asm.busySet) := by
  cases h : before.stateOf y <;>
    simp only [State.respond, h, reduceCtorEq, or_self, or_true, true_or, if_true, if_false]
  · rfl
  · exact dropped_respondView u y
  · exact dropped_respondView u y
  · rfl

/-- R84: before its image is complete, any well-formed LOSS that names the station detaches it. -/
theorem joiner_namedLost (awake : s.loader.held = false) (life : s.lifecycle = .joining)
    (incomplete : s.image.standing ≠ .complete) (notOwn : s.commit.flownAs? (.loss x s.number) = none)
    (ok : s.received? (.loss x s.number) = some (.ok (.loss x s.number))) (other : x ≠ s.number)
    (closed : s.service.restartOpen = false) :
    s.commitFrame (.loss x s.number) = s.slotClosed.detach (some .namedLost) := by
  have names : namesLost s.slotClosed.number (.loss x s.number) = true := by
    simp [namesLost, State.slotClosed, State.number]
  have closed' : s.slotClosed.service.restartOpen = false := closed
  rw [commitFrame_participates awake (by simp [life, Lifecycle.participates]) notOwn ok other]
  change (s.slotClosed.deliver (.loss x s.number) false).checkIsolation s.roster = _
  have life' : s.slotClosed.lifecycle = .joining := life
  have incomplete' : s.slotClosed.image.standing ≠ .complete := incomplete
  simp only [State.deliver, life', incomplete', if_false, State.deliverJoiner, names, if_true, Bool.false_eq_true]
  rw [State.checkIsolation, detach_cause closed']
  rfl

/-- Settles O23: LOSS of a peer with and without the detach of R112, then LOSS of this station. -/
theorem lossTakesEffect : Obligations.LossTakesEffect := by
  refine ⟨fun s x y h other => ?_, fun s x closed => ⟨fun h => ?_, fun awake life incomplete notOwn ok sender => ?_⟩⟩
  · have notLost : namesLost s.number (.loss x y) = false := by simp [namesLost, other]
    refine ⟨fun falls closed => commitFrame_fallsOff rfl h notLost (by simp) falls closed, fun stays => ?_⟩
    have loss : lossSetAfter s.number (.loss x y) s.asm.lossSet = eraseStation y (eraseStation x s.asm.lossSet) :=
      congrArg (eraseStation y) (if_neg h.other)
    obtain ⟨kept, eq, respond, serve⟩ := commitFrame_peer h notLost (by simp) stays
    have apply := applyLiveFrame_eq s.slotClosed (.loss x y)
    have follows : ServiceFollows s (s.commitFrame (.loss x y)) y (s.roster.stateOf y = .active) := by
      obtain only := respond_only (s.slotClosed.applyLiveFrame (.loss x y)) s.roster (.loss x y)
      refine serviceFollows_of_serve kept rfl (by simp) (only.serviceView.trans (by rw [apply]; rfl))
        (fun _ => ?_) serve
      rw [only.2, apply]
      exact rosterAfter_loss_stateOf s x y
    rw [respond_loss_respondView, apply] at respond
    refine ⟨s.commitFrame (.loss x y), by rw [exec_frame rfl]; exact answer_settlesBy _, follows, ?_, ?_⟩
    all_goals
      generalize s.commitFrame (.loss x y) = e at eq respond
      simp only [State.respondView, Prod.mk.injEq] at respond
      obtain ⟨snapshot, part, busy⟩ := respond
    · intro onLink
      rw [if_pos onLink] at snapshot busy
      rw [busy, snapshot]
      exact ⟨by simp [mem_eraseStation], fun sn hsn => snapshotWithout_joiner hsn⟩
    · rw [snapshot, part, busy, loss] at eq
      exact eq
  · have names : namesLost s.number (.loss x s.number) = true := by simp [namesLost]
    exact detachesWith_of_detach (u := s.slotClosed)
      ((exec_frame rfl s).trans (congrArg State.answer (commitFrame_namesLost h names closed)))
      ⟨rfl, rfl, rfl, rfl, rfl, rfl⟩ closed rfl rfl id
  · exact detachesWith_of_detach (u := s.slotClosed)
      ((exec_frame rfl s).trans
        (congrArg State.answer (joiner_namedLost awake life incomplete notOwn ok sender closed)))
      ⟨rfl, rfl, rfl, rfl, rfl, rfl⟩ closed rfl rfl id

end

end Sys2Proof.Machine

/-! SUPPORT. The commit of a peer's JOIN, and two stations that take the same frame (R15, R25, R80, R100, R101, R106,
R169). -/

namespace Sys2Proof.Machine

/-! ### JOIN of a peer -/

section
variable {s : State} {x k : Station} {p : Nat}

/-- R80: the roster after the JOIN of a peer. -/
theorem rosterAfter_join (other : x ≠ s.number) :
    s.rosterAfter (.join x k p) = s.roster.update x fun _ => ⟨.joining, p, none, some 0⟩ := by
  show breakSilence s.number x (s.roster.update x fun e => e.join p (true && decide (x ≠ s.number))) = _
  rw [breakSilence_update other]
  refine Roster.update_congr ?_
  simp [RosterEntry.join, other]

/-- R80: a JOIN takes an ACTIVE station out of ACTIVE. -/
theorem joined_stateOf {r : Roster} (active : r.stateOf x = .active) (e : RosterEntry) (joining : e.state = .joining) :
    Roster.stateOf (r.update x fun _ => e) x ≠ .active := by
  obtain ⟨low, high⟩ := Roster.stands (r := r) (x := x) (by simp [active])
  rw [Roster.stateOf, Roster.entry_update, if_pos ⟨rfl, low, high⟩, joining]
  simp

/-- R100, R101, R106: what the station holds as a respondent after a JOIN, by the state `u` that the JOIN's effects
leave. -/
theorem respond_join_respondView (u : State) (before : Roster) (x k : Station) (p : Nat) :
    (u.respond before (.join x k p)).respondView =
      if u.lifecycle = .active then (u.respondToJoin x k).respondView else u.respondView := by
  simp only [State.respond]
  split <;> rfl

/-- Settles O26: the roster rule of a JOIN, then what the respondent makes of it, by its lifecycle, by whether it is
named, and by whether it serves another joiner. -/
theorem peerJoinTakesEffect : Obligations.PeerJoinTakesEffect := by
  intro s x k p h
  have roster : s.rosterAfter (.join x k p) = s.roster.update x fun _ => ⟨.joining, p, none, some 0⟩ :=
    rosterAfter_join h.other
  dsimp only
  rw [← roster]
  refine ⟨fun falls closed => commitFrame_fallsOff rfl h rfl (by simp) falls closed, fun stays => ?_⟩
  have loss : lossSetAfter s.number (.join x k p) s.asm.lossSet = eraseStation x s.asm.lossSet := if_neg h.other
  obtain ⟨kept, eq, respond, serve⟩ := commitFrame_peer h rfl (by simp) stays
  have apply := applyLiveFrame_eq s.slotClosed (.join x k p)
  have follows : ServiceFollows s (s.commitFrame (.join x k p)) x (s.roster.stateOf x = .active) := by
    obtain only := respond_only (s.slotClosed.applyLiveFrame (.join x k p)) s.roster (.join x k p)
    refine serviceFollows_of_serve kept rfl (by simp) (only.serviceView.trans (by rw [apply]; rfl)) (fun active => ?_)
      serve
    rw [only.2, apply]
    show Roster.stateOf (s.rosterAfter (.join x k p)) x ≠ .active
    rw [roster]
    exact joined_stateOf active _ rfl
  rw [respond_join_respondView, respondToJoin_respondView, apply] at respond
  refine ⟨s.commitFrame (.join x k p), by rw [exec_frame rfl]; exact answer_settlesBy _, follows, ?_, ?_⟩
  · rw [loss] at eq
    exact eq
  generalize s.commitFrame (.join x k p) = e at respond
  change e.respondView = if s.lifecycle = .active then
      if respondentOf (s.rosterAfter (.join x k p)) k = some s.number then
        match snapshotWithout s x with
        | none => (some ⟨x, rosterCopy (s.rosterAfter (.join x k p)),
            frameEffect s.roster (.join x k p) s.image.points, 0⟩, true, eraseStation x s.asm.busySet)
        | some sn => (some sn, partSlotWithout s x, insertStation x (eraseStation x s.asm.busySet))
      else (snapshotWithout s x, partSlotWithout s x, eraseStation x s.asm.busySet)
    else (s.join.snapshot, s.asm.partSlot, s.asm.busySet) at respond
  refine ⟨fun active named free => ?_, fun sn active named busy => ?_, fun active unnamed => ?_, fun other => ?_⟩
  · rw [if_pos active, if_pos named, free] at respond
    simpa only [State.respondView, Prod.mk.injEq] using respond
  · rw [if_pos active, if_pos named, busy, partSlotWithout_kept busy] at respond
    simp only [State.respondView, Prod.mk.injEq] at respond
    obtain ⟨snapshot, part, owed⟩ := respond
    refine ⟨snapshot, part, by simp [owed, mem_insertStation], fun z hz => ?_⟩
    simp [owed, mem_insertStation, mem_eraseStation, hz]
  · rw [if_pos active, if_neg unnamed] at respond
    simp only [State.respondView, Prod.mk.injEq] at respond
    obtain ⟨snapshot, part, owed⟩ := respond
    exact ⟨snapshot, part, owed, by simp [owed, mem_eraseStation],
      fun sn hsn => snapshotWithout_joiner (snapshot.symm.trans hsn)⟩
  · rw [if_neg other] at respond
    simpa only [State.respondView, Prod.mk.injEq] using respond

end

/-! ### What a departure leaves of the image (R113, R177) -/

@[simp] theorem leaveLink_image (s : State) (life : Lifecycle) (holdoff : Option Nat) :
    (s.leaveLink life holdoff).image = ImageBlock.reset := rfl

/-- R177: reading the straps leaves the image. -/
@[simp] theorem readStraps_image (s : State) : s.readStraps.image = s.image := by
  unfold State.readStraps
  dsimp only
  split
  · rfl
  · exact (report_untouched _ _ _).image

@[simp] theorem performRestart_image (s : State) : s.performRestart.image = ImageBlock.reset := readStraps_image _

/-- R113, R174: no image is left after a detach, a RESTART in its place or not. -/
@[simp] theorem detach_image (s : State) (cause : Option FaultKind) : (s.detach cause).image = ImageBlock.reset := by
  unfold State.detach
  dsimp only
  rw [apply_ite State.image, performRestart_image, leaveLink_image, ite_self]

/-! ### Two stations that take the same frame (R25) -/

/-- A change of one entry whose outcome in state and period follows from the state and period before. -/
theorem rosterCopy_update {f : RosterEntry → RosterEntry} {F : RosterState × Nat → RosterState × Nat}
    (follows : ∀ e, ((f e).state, (f e).period) = F (e.state, e.period)) (r : Roster) (x : Station) :
    rosterCopy (r.update x f) = if x = 0 then rosterCopy r else (rosterCopy r).modify (x - 1) F := by
  unfold Roster.update rosterCopy
  split
  · rfl
  · refine List.ext_getElem? fun i => ?_
    simp only [List.getElem?_map, List.getElem?_modify]
    cases r[i]? with
    | none => rfl
    | some e =>
      simp only [Option.map_eq_map, Option.map_some, ← follows]
      split <;> rfl

theorem stateOf_eq_rosterCopy (r : Roster) (x : Station) :
    r.stateOf x = if x = 0 then .absent else ((rosterCopy r)[x - 1]?.map Prod.fst).getD .absent := by
  unfold Roster.stateOf Roster.entry rosterCopy
  split
  · rfl
  · rw [List.getD, List.getElem?_map, Option.map_map]
    cases r[x - 1]? <;> rfl

/-- R85: silence is no part of the copy. -/
theorem rosterCopy_breakSilence (own x : Station) (r : Roster) : rosterCopy (breakSilence own x r) = rosterCopy r := by
  unfold breakSilence
  split
  · rfl
  · rw [rosterCopy_update (F := id)]
    · split
      · rfl
      · exact List.modify_id ..
    · intro e
      split <;> rfl

/-- R82: what a LOSS makes of a state and a period. -/
def lostCopy (e : RosterState × Nat) : RosterState × Nat :=
  if e.1 = .active ∨ e.1 = .joining then (.lost, e.2) else e

/-- R83: what a RELEASE makes of a state and a period. -/
def releasedCopy (e : RosterState × Nat) : RosterState × Nat := if e.1 = .lost then (.absent, 0) else e

theorem lose_copy (e : RosterEntry) : (e.lose.state, e.lose.period) = lostCopy (e.state, e.period) := by
  unfold RosterEntry.lose lostCopy
  cases h : e.state <;> simp [h]

theorem release_copy (e : RosterEntry) : (e.release.state, e.release.period) = releasedCopy (e.state, e.period) := by
  unfold RosterEntry.release releasedCopy
  split <;> simp_all

/-- R25, R79: the copy after a frame follows from the copy before, whatever number the station has. -/
theorem rosterCopy_rosterEffect {r t : Roster} (same : rosterCopy r = rosterCopy t) (own other : Station)
    (timed : Bool) (f : Frame) :
    rosterCopy (rosterEffect own timed f r) = rosterCopy (rosterEffect other timed f t) := by
  cases f with
  | join x k p =>
    simp only [rosterEffect]
    rw [rosterCopy_update (F := fun _ => (.joining, p)) fun _ => rfl,
      rosterCopy_update (F := fun _ => (.joining, p)) fun _ => rfl, same]
  | entry x p items =>
    simp only [rosterEffect]
    rw [rosterCopy_update (F := fun _ => (.active, p)) fun _ => rfl,
      rosterCopy_update (F := fun _ => (.active, p)) fun _ => rfl, same]
  | loss x y => simp only [rosterEffect, rosterCopy_update lose_copy, same]
  | release x y => simp only [rosterEffect, rosterCopy_update release_copy, same]
  | _ => exact same

/-- R25, R8: the points after a frame follow from the points and the states before. -/
theorem frameEffect_congr {r t : Roster} (same : rosterCopy r = rosterCopy t) (f : Frame) (m : Image) :
    frameEffect r f m = frameEffect t f m := by
  have states : r.stateOf = t.stateOf := funext fun x => by
    rw [stateOf_eq_rosterCopy, stateOf_eq_rosterCopy, same]
  unfold frameEffect
  rw [states]

/-- R25: the replica after a frame at a station whose image is complete before and after it. -/
theorem commitFrame_replica {s : State} {f : Frame} (h : LivePeerFrame s f)
    (stays : (s.commitFrame f).image.standing = .complete) :
    (s.commitFrame f).replica =
      (rosterCopy (rosterEffect s.number true f s.roster), frameEffect s.roster f s.image.points) := by
  have discarded : ImageBlock.reset.standing ≠ .complete := by decide
  have commit := commitFrame_live h
  change _ = (s.slotClosed.deliverLive f false).checkIsolation s.roster at commit
  rw [State.deliverLive, if_neg (by simp [State.slotClosed, h.accepted])] at commit
  have taken : s.commitFrame f = s.slotClosed.takeLiveFrame f := by
    split at commit
    · rw [commit, State.checkIsolation, detach_image, if_neg (by simp [discarded]), detach_image] at stays
      exact absurd stays discarded
    · rw [commit] at stays ⊢
      unfold State.checkIsolation at stays ⊢
      split
      · rename_i isolated
        rw [if_pos isolated, detach_image] at stays
        exact absurd stays discarded
      · rfl
  obtain ⟨image, roster⟩ := effectsOf_replica s.slotClosed f
  rw [taken, takeLiveFrame_eq]
  show (rosterCopy (s.slotClosed.effectsOf f).roster, (s.slotClosed.effectsOf f).image.points) = _
  rw [image, roster, rosterCopy_breakSilence]
  rfl

/-- Settles O27: the replica after the frame is one function of the replica before. -/
theorem replicasStayEqual : Obligations.ReplicasStayEqual := by
  intro a b ta tb c f carries liveA liveB same nextA nextB completeA completeB
  have outcome : ∀ {s t : State}, LivePeerFrame s f → exec c s = .next t → t.image.standing = .complete →
      t.replica = (rosterCopy (rosterEffect s.number true f s.roster), frameEffect s.roster f s.image.points) := by
    intro s t live next complete
    rw [exec_frame carries] at next
    injection next with next
    subst next
    have untouched := finish_untouched (s.commitFrame f)
    rw [untouched.image] at complete
    rw [← commitFrame_replica live complete, State.replica, State.replica, untouched.roster, untouched.image]
  obtain ⟨roster, points⟩ := Prod.mk.inj same
  change rosterCopy a.roster = rosterCopy b.roster at roster
  rw [outcome liveA nextA completeA, outcome liveB nextB completeB, rosterCopy_rosterEffect roster a.number b.number,
    frameEffect_congr roster, points]

end Sys2Proof.Machine

/-! SUPPORT. The commits of this station's own frames: their effects, and their outcome at the assembler and the service
unit (R53, R58, R60, R66, R70 to R77, R81, R110). -/

namespace Sys2Proof.Machine

/-! ### The commit of an own frame, by its steps (R53, R77) -/

section
variable {s : State} {f : Frame}

/-- This station when the slot of its own frame has closed (R58, R60). -/
def State.ownSlotClosed (s : State) : State := { s with commit := ownCommitUnit s }

/-- R53, R77: the path of an own frame: to the blocks, then its outcome, then the check of R112. -/
theorem commitFrame_own {fl : Flight} (h : OwnFrame s fl) (onMedium : s.lifecycle.onMedium = true) :
    s.commitFrame fl.frame = (((s.ownSlotClosed.deliver fl.frame true).someTasks).settleCommitted fl
      (targetLost s.roster fl.frame)).checkIsolation s.roster := by
  have flown : s.commit.flownAs? fl.frame = some fl := by simp [CommitUnit.flownAs?, h.inFlight]
  unfold State.commitFrame
  rw [if_neg (by simp [h.awake]), if_neg (by simp [onMedium]), flown]
  rfl

/-- R18 to R20, R54: all that the effects of an own frame change. -/
theorem takeLiveFrame_own (own : frameSender f = s.number) (noRequest : ∀ x y tag q, f ≠ .svcReq x y tag q) :
    s.ownSlotClosed.takeLiveFrame f = { s with
      commit := ownCommitUnit s
      image := s.image.applyLive s.roster f
      roster := rosterEffect s.number true f s.roster
      join := { s.join with
        stray := eraseEntry s.number s.join.stray
        snapshot := (s.ownSlotClosed.takeLiveFrame f).join.snapshot }
      asm := { s.asm with
        lossSet := lossSetAfter s.number f s.asm.lossSet
        partSlot := (s.ownSlotClosed.takeLiveFrame f).asm.partSlot
        busySet := (s.ownSlotClosed.takeLiveFrame f).asm.busySet
        responseSlot := (s.ownSlotClosed.takeLiveFrame f).asm.responseSlot
        releaseSlot := (s.ownSlotClosed.takeLiveFrame f).asm.releaseSlot }
      service := (s.ownSlotClosed.takeLiveFrame f).service
      agenda := (s.ownSlotClosed.takeLiveFrame f).agenda } := by
  obtain ⟨kept, eq⟩ := effectsOf_eq s.ownSlotClosed noRequest
  have landed : (s.ownSlotClosed.effectsOf f).commit.flight = none := kept.1 rfl
  have sender : frameSender f = s.ownSlotClosed.number := own
  rw [landed, sender, breakSilence_own] at eq
  rw [takeLiveFrame_eq, State.post]
  generalize s.ownSlotClosed.effectsOf f = e at eq ⊢
  rw [eq]
  rfl

/-- R18 to R20, R90, R161: what an own frame hands on. -/
theorem takeLiveFrame_own_agenda (own : frameSender f = s.number) (noRequest : ∀ x y tag q, f ≠ .svcReq x y tag q) :
    (s.ownSlotClosed.takeLiveFrame f).agenda = s.agenda ++ handedOn s f
      (decide (s.lifecycle = .active) && !(s.ownSlotClosed.takeLiveFrame f).isolatedSince s.roster)
      (s.image.applyLive s.roster f) (rosterEffect s.number true f s.roster) := by
  have eq := takeLiveFrame_own own noRequest
  have image : (s.ownSlotClosed.takeLiveFrame f).image = s.image.applyLive s.roster f := by rw [eq]
  have roster : (s.ownSlotClosed.takeLiveFrame f).roster = rosterEffect s.number true f s.roster := by rw [eq]
  have agenda := takeLiveFrame_agenda s.ownSlotClosed f
  rw [image, roster] at agenda
  exact agenda

/-- An own frame that the roster accepts, and that does not name this station in a LOSS, reaches the live blocks. -/
theorem deliverLive_own (accepted : accepts s.roster f = true) (notLost : namesLost s.number f = false) :
    s.ownSlotClosed.deliverLive f true = s.ownSlotClosed.takeLiveFrame f := by
  have notLost' : namesLost s.ownSlotClosed.number f = false := notLost
  rw [State.deliverLive, if_neg (by simp [State.ownSlotClosed, accepted]), if_neg (by simp [notLost'])]

end

/-! ### The link values of the contribution table (R66, R76) -/

/-- What the link sees of a row of the contribution table. -/
def ContributionRow.onLink (r : ContributionRow) : Point × Bool × Option Bool := (r.point, r.link, r.flying)

theorem rowsCommitted_onLink (rows : List ContributionRow) :
    (rowsCommitted rows).map ContributionRow.onLink = rows.map fun r => (r.point, r.flying.getD r.link, none) := by
  rw [rowsCommitted, List.map_map]
  refine List.map_congr_left fun r _ => ?_
  cases h : r.flying <;> simp [ContributionRow.onLink, h]

/-- R76: the link value of point `p` after the items of an ENTRY. -/
def enteredLink (p : Point) (link : Bool) (items : List Item) : Bool :=
  items.foldl (fun link item =>
    match item with
    | .level q on => if q = p then on else link
    | _ => link) link

theorem enteredLink_unnamed {p : Point} {items : List Item} (unnamed : ∀ v, .level p v ∉ items) (link : Bool) :
    enteredLink p link items = link := by
  induction items generalizing link with
  | nil => rfl
  | cons item items ih =>
    have first : ∀ v, item ≠ .level p v := fun v e => unnamed v (e ▸ List.mem_cons_self ..)
    have step : enteredLink p link (item :: items) = enteredLink p link items := by
      cases item with
      | level q on =>
        have other : q ≠ p := fun e => first on (e ▸ rfl)
        simp [enteredLink, other]
      | _ => rfl
    rw [step]
    exact ih (fun v h => unnamed v (List.mem_cons_of_mem _ h)) link

/-- R76: the last LEVEL item of a point gives its link value. -/
theorem enteredLink_last {p : Point} {before after : List Item} {on : Bool} (last : ∀ v, .level p v ∉ after)
    (link : Bool) : enteredLink p link (before ++ .level p on :: after) = on := by
  have split : enteredLink p link (before ++ .level p on :: after) = enteredLink p on after := by
    simp [enteredLink]
  rw [split, enteredLink_unnamed last]

theorem enteredRow_onLink (items : List Item) (r : ContributionRow) :
    ContributionRow.onLink (items.foldl (fun r item =>
      match item with
      | .level p on => if p = r.point then { r with link := on } else r
      | _ => r) r) = (r.point, enteredLink r.point r.link items, r.flying) := by
  induction items generalizing r with
  | nil => rfl
  | cons item items ih =>
    cases item with
    | level p on =>
      simp only [List.foldl_cons, enteredLink]
      split
      · exact ih { r with link := on }
      · exact ih r
    | _ => exact ih r

theorem rowsEntered_onLink (rows : List ContributionRow) (items : List Item) :
    (rowsEntered rows items).map ContributionRow.onLink =
      rows.map fun r => (r.point, enteredLink r.point r.link items, r.flying) := by
  rw [rowsEntered, List.map_map]
  exact List.map_congr_left fun r _ => enteredRow_onLink items r

/-- R66, R76: the rows after the commit of this station's ENTRY. -/
theorem rowsEntered_committed (rows : List ContributionRow) (items : List Item) :
    (rowsEntered (rowsCommitted rows) items).map ContributionRow.onLink =
      (rows.map ContributionRow.onLink).map fun r => (r.1, enteredLink r.1 (r.2.2.getD r.2.1) items, none) := by
  have through := congrArg (List.map fun r : Point × Bool × Option Bool => (r.1, enteredLink r.1 r.2.1 items, r.2.2))
    (rowsCommitted_onLink rows)
  rw [List.map_map, List.map_map] at through
  rw [rowsEntered_onLink, List.map_map]
  exact through

/-! ### The station becomes ACTIVE (R81, R110, R123, R126) -/

/-- R81: the entries after the silences have started again. -/
theorem restartSilences_entry (own : Station) (r : Roster) (y : Station) :
    Roster.entry (restartSilences own r) y =
      if r.stateOf y = .active ∧ y ≠ own then { r.entry y with silence := some 0 } else r.entry y := by
  unfold Roster.stateOf Roster.entry restartSilences
  rcases Nat.eq_zero_or_pos y with rfl | pos
  · simp
  · have place : y - 1 + 1 = y := Nat.sub_add_cancel pos
    simp only [if_neg (Nat.ne_of_gt pos), List.getD, List.getElem?_mapIdx, place, Bool.and_eq_true, decide_eq_true_eq]
    cases r[y - 1]? with
    | none => simp
    | some e => rfl

/-- R126: OWN-ACTIVE is ON and G0 is OPEN. -/
def Evaluator.Open (e : Evaluator) : Prop := e.src.ownActive = true ∧ e.gates.getD 0 .closed = .opened

theorem evalPass_open {ctx : EvalContext} (life : ctx.life = .active) (changed : List Source) {p : PassState}
    (own : p.eval.src.ownActive = true) : (evalPass ctx changed p).eval.Open := by
  refine ⟨own, ?_⟩
  rw [evalPass_gates, life]
  rfl

/-- R126: at an ACTIVE station the lifecycle event opens G0, and every event leaves it open. -/
theorem takeEvent_open {ctx : EvalContext} (life : ctx.life = .active) (event : EvalEvent) (e : Evaluator)
    (h : e.Open ∨ event = .lifecycle) : (takeEvent ctx event e).eval.Open :=
  takeEvent_keeps (P := fun b _ => b.Open)
    (fun idle => h.resolve_right fun lifecycle => by rw [lifecycle] at idle; cases idle)
    (fun changed _ own => evalPass_open life changed (own.trans (decide_eq_true life)))
    (fun changed _ ⟨own, _⟩ => evalPass_open life changed own) fun _ _ _ h => h

theorem takeEvalEvent_open {s : State} (life : s.lifecycle = .active) (event : EvalEvent)
    (h : s.eval.Open ∨ event = .lifecycle) : (s.takeEvalEvent event).eval.Open := by
  obtain ⟨v, eval⟩ := takeEvalEvent_eval s event
  rw [eval]
  exact takeEvent_open (ctx := s.evalContext) life event s.eval h

/-- R126: at an ACTIVE station every hand-off leaves G0 open, and that of the lifecycle opens it. -/
theorem takeHandOff_open {s : State} (life : s.lifecycle = .active) (h : HandOff)
    (p : s.eval.Open ∨ h = .lifecycleToEvaluator) : (s.takeHandOff h).eval.Open := by
  cases h with
  | pointsApplied changes =>
    have before := p.resolve_right (by simp)
    simpa [State.takeHandOff, Evaluator.Open, putPoints_points] using before
  | source x on => exact takeEvalEvent_open life _ (.inl (p.resolve_right (by simp)))
  | lifecycleToEvaluator => exact takeEvalEvent_open life _ (.inr rfl)
  | report k subject at_life =>
    have eval : (s.takeHandOff (.report k subject at_life)).eval = s.eval := takeReport_eval s k subject at_life
    rw [eval]
    exact p.resolve_right (by simp)
  | _ => exact p.resolve_right (by simp)

/-- R110, R126, R127: a station that has become ACTIVE has G0 open once the hand-off of its lifecycle has been taken. -/
theorem Takes.opens {n : Nat} {s t : State} (takes : Takes n s t) (life : s.lifecycle = .active)
    (h : s.eval.Open ∨ .lifecycleToEvaluator ∈ s.agenda) : t.eval.Open ∨ .lifecycleToEvaluator ∈ t.agenda :=
  (takes.reaches (I := fun s => s.lifecycle = .active) (P := fun s => s.eval.Open) (fun _ _ _ _ => ⟨id, id⟩)
    (fun s h life => ⟨(takeHandOff_untouched s h).lifecycle.trans life, takeHandOff_open life h⟩) life h).2

theorem finish_opens {s : State} (life : s.lifecycle = .active)
    (h : s.eval.Open ∨ .lifecycleToEvaluator ∈ s.agenda) : s.finish.eval.Open := by
  obtain ⟨n, takes, agenda, -⟩ := finish_takes s
  have opened := takes.opens life h
  rw [agenda] at opened
  exact opened.resolve_right (by simp)

end Sys2Proof.Machine

/-! SUPPORT. The commit of this station's own ENTRY (R76, R81, R110, R126, R131). -/

namespace Sys2Proof.Machine

section
variable {s : State} {p : Nat} {items : List Item}

/-- R81: the roster after this station's own ENTRY, the silences not yet started again. -/
theorem rosterEffect_ownEntry (own : s.roster.stateOf s.number = .joining) (y : Station) :
    Roster.entry (rosterEffect s.number true (.entry s.number p items) s.roster) y =
      if y = s.number then ⟨.active, p, none, none⟩ else s.roster.entry y := by
  obtain ⟨low, high⟩ := Roster.stands (r := s.roster) (x := s.number) (by simp [own])
  rw [rosterEffect, Roster.entry_update]
  simp [RosterEntry.enter, low, high]

/-- R81: the roster after this station's own ENTRY. -/
theorem ownEntry_roster (own : s.roster.stateOf s.number = .joining) (y : Station) :
    Roster.entry (restartSilences s.number (rosterEffect s.number true (.entry s.number p items) s.roster)) y =
      if y = s.number then ⟨.active, p, none, none⟩
      else if s.roster.stateOf y = .active then { s.roster.entry y with silence := some 0 } else s.roster.entry y := by
  rw [restartSilences_entry, Roster.stateOf, rosterEffect_ownEntry own]
  by_cases self : y = s.number
  · simp [self]
  · simp only [self, ne_eq, not_false_eq_true, and_true, if_false]
    rfl

/-- R81, R110: this station's ENTRY where the roster has it ACTIVE. -/
theorem ownEntry_eq {u : State} (active : u.roster.stateOf u.number = .active) : u.ownEntry =
    { u with
      lifecycle := .active
      roster := restartSilences u.number u.roster
      join := { u.join with attempts := 0 }
      agenda := u.agenda ++ [.lifecycleToEvaluator, .lifecycleToField] } := by
  unfold State.ownEntry
  rw [if_pos active]
  rfl

/-- R66, R70, R73, R76: COMMITTED at the assembler for an ENTRY. -/
def State.entrySettled (w : State) (items : List Item) : State :=
  { w with asm := { w.asm with
    rollDue := false
    joinSlot := none
    rows := rowsEntered (rowsCommitted w.asm.rows) items
    requests := requestsCommitted w.asm.requests } }

theorem settleCommitted_entry (w : State) (x : Station) (wasLost : Bool) :
    w.settleCommitted ⟨.entry x p items, .joinSlot, false⟩ wasLost = w.entrySettled items := rfl

/-- R76: the row of the table that stands where `r` stood before this station's ENTRY. -/
theorem row_of_onLink {rows after : List ContributionRow}
    (links : after.map ContributionRow.onLink = (rows.map ContributionRow.onLink).map fun r =>
      (r.1, enteredLink r.1 (r.2.2.getD r.2.1) items, none)) {i : Nat} {r : ContributionRow}
    (at_i : rows[i]? = some r) :
    ∃ r', after[i]? = some r' ∧ r'.point = r.point ∧ r'.flying = none ∧
      (∀ before on rest, items = before ++ .level r.point on :: rest → (∀ v, .level r.point v ∉ rest) → r'.link = on) ∧
      ((∀ v, .level r.point v ∉ items) → r'.link = r.flying.getD r.link) := by
  have place := congrArg (·[i]?) links
  simp only [List.getElem?_map, at_i, Option.map_some, Option.map_eq_some_iff] at place
  obtain ⟨r', at_i', onLink⟩ := place
  obtain ⟨point, link, flying⟩ : r'.point = r.point ∧
      r'.link = enteredLink r.point (r.flying.getD r.link) items ∧ r'.flying = none := by
    simpa only [ContributionRow.onLink, Prod.mk.injEq] using onLink
  refine ⟨r', at_i', point, flying, fun before on rest eq last => ?_, fun unnamed => ?_⟩
  · rw [link, eq, enteredLink_last last]
  · rw [link, enteredLink_unnamed unnamed]

/-- R112: this station's ENTRY leaves no fewer heard peers. -/
theorem ownEntry_heard (own : s.roster.stateOf s.number = .joining) : heardPeers s.number s.roster ≤
    heardPeers s.number (restartSilences s.number (rosterEffect s.number true (.entry s.number p items) s.roster)) := by
  refine heardPeers_le fun y other active _ => ?_
  rw [Roster.stateOf, ownEntry_roster own, if_neg other, if_pos active]
  exact ⟨active, rfl⟩

/-- This station when the effects of its ENTRY have been taken and its lifecycle is about to change; some of what it
hands on has been taken (R131). -/
def State.entryTaken (s : State) (f : Frame) : State := (s.ownSlotClosed.takeLiveFrame f).someTasks

/-- R81, R110: the station at the moment it becomes ACTIVE. -/
theorem entryTaken_ownEntry (own : s.roster.stateOf s.number = .joining) :
    let u := s.entryTaken (.entry s.number p items)
    u.ownEntry = { u with
      lifecycle := .active
      roster := restartSilences s.number (rosterEffect s.number true (.entry s.number p items) s.roster)
      join := { u.join with attempts := 0 }
      agenda := u.agenda ++ [.lifecycleToEvaluator, .lifecycleToField] } := by
  intro u
  have eq := takeLiveFrame_own (s := s) (f := .entry s.number p items) rfl (by simp)
  have untouched : Untouched _ u := someTasks_untouched (s.ownSlotClosed.takeLiveFrame (.entry s.number p items))
  have number : u.number = s.number := by
    rw [State.number, untouched.loader, eq]
    rfl
  have roster : u.roster = rosterEffect s.number true (.entry s.number p items) s.roster := by
    rw [untouched.roster, eq]
  rw [ownEntry_eq, number, roster]
  rw [number, roster, Roster.stateOf, rosterEffect_ownEntry own, if_pos rfl]

/-- R53, R77, R110: the path of this station's ENTRY to the end of its commit. -/
theorem commitFrame_ownEntry (h : OwnFrame s ⟨.entry s.number p items, .joinSlot, false⟩)
    (life : s.lifecycle = .joining) (complete : s.image.standing = .complete)
    (own : s.roster.stateOf s.number = .joining) :
    s.commitFrame (.entry s.number p items) =
      ((s.entryTaken (.entry s.number p items)).ownEntry.someTasks).settleCommitted
        ⟨.entry s.number p items, .joinSlot, false⟩ false := by
  have accepted : accepts s.roster (.entry s.number p items) = true := by simp [accepts, frameSender, own]
  have eq := takeLiveFrame_own (s := s) (f := .entry s.number p items) rfl (by simp)
  have deliver : s.ownSlotClosed.deliver (.entry s.number p items) true =
      (s.entryTaken (.entry s.number p items)).ownEntry := by
    have life' : s.ownSlotClosed.lifecycle = .joining := life
    have complete' : s.ownSlotClosed.image.standing = .complete := complete
    simp only [State.deliver, life', complete', if_true]
    rw [deliverLive_own accepted rfl, State.entryTaken]
  rw [commitFrame_own h (by simp [life, Lifecycle.onMedium]), deliver]
  have untouched : Untouched _ (s.entryTaken (.entry s.number p items)) :=
    someTasks_untouched (s.ownSlotClosed.takeLiveFrame (.entry s.number p items))
  have later := someTasks_untouched (s.entryTaken (.entry s.number p items)).ownEntry
  have became := entryTaken_ownEntry (p := p) (items := items) own
  have roster := later.roster.trans (congrArg State.roster became)
  have loader : (s.entryTaken (.entry s.number p items)).ownEntry.someTasks.loader = s.loader := by
    rw [later.loader, became]
    exact untouched.loader.trans (by rw [eq])
  have stray : (s.entryTaken (.entry s.number p items)).ownEntry.someTasks.join.stray =
      eraseEntry s.number s.join.stray := by
    rw [later.join, became]
    exact (congrArg JoinController.stray untouched.join).trans (by rw [eq])
  generalize (s.entryTaken (.entry s.number p items)).ownEntry.someTasks = w at roster loader stray ⊢
  change w.roster = restartSilences s.number (rosterEffect s.number true (.entry s.number p items) s.roster) at roster
  rw [settleCommitted_entry, settleCommitted_entry]
  refine checkIsolation_stays (Bool.eq_false_iff.mpr fun isolated => ?_)
  have falls := (isolatedSince_iff (s := s) loader roster stray).mp isolated
  exact absurd falls.1 (Nat.not_lt.mpr (ownEntry_heard own))

/-- R18 to R20, R54: what this station's ENTRY takes effect on, where it is JOINING; the service unit takes no part. -/
theorem takeLiveFrame_ownEntry (life : s.lifecycle = .joining) :
    let f := Frame.entry s.number p items
    let e := s.ownSlotClosed.takeLiveFrame f
    e = { s with
      commit := ownCommitUnit s
      image := s.image.applyLive s.roster f
      roster := rosterEffect s.number true f s.roster
      join := e.join
      asm := e.asm
      agenda := s.agenda ++ handedOn s f false (s.image.applyLive s.roster f)
        (rosterEffect s.number true f s.roster) } ∧
    e.asm.lossSet = s.asm.lossSet ∧ e.asm.rollTimer = s.asm.rollTimer ∧ e.asm.rows = s.asm.rows := by
  intro f e
  have eq : e = _ := takeLiveFrame_own (s := s) (f := f) rfl (by simp [f])
  have handed : e.agenda = _ := takeLiveFrame_own_agenda (s := s) (f := f) rfl (by simp [f])
  have service : e.service = s.service := by
    have only := dropSnapshotFor_only (s.ownSlotClosed.applyLiveFrame f) s.number
    exact (congrArg Prod.fst only.serviceView).trans (by rw [applyLiveFrame_eq]; rfl)
  have loss : lossSetAfter s.number f s.asm.lossSet = s.asm.lossSet := if_pos rfl
  rw [life, decide_eq_false (by simp), Bool.false_and] at handed
  rw [show s.ownSlotClosed.takeLiveFrame f = e from rfl, handed, service, loss] at eq
  generalize e = e' at eq
  rw [eq]
  exact ⟨rfl, rfl, rfl, rfl⟩

/-- Settles O40: the path of the commit, then each claim read off its last state; G0 opens by the hand-off of the
lifecycle. -/
theorem ownEntryMakesTheStationActive : Obligations.OwnEntryMakesTheStationActive := by
  intro s p items h life complete _ _ own
  have commit := commitFrame_ownEntry h life complete own
  obtain ⟨eq, sameLoss, sameTimer, sameRows⟩ := takeLiveFrame_ownEntry (p := p) (items := items) life
  have became := entryTaken_ownEntry (p := p) (items := items) own
  dsimp only at became
  have untouched : Untouched _ (s.entryTaken (.entry s.number p items)) :=
    someTasks_untouched (s.ownSlotClosed.takeLiveFrame (.entry s.number p items))
  obtain ⟨n, takes⟩ := someTasks_takes (s.ownSlotClosed.takeLiveFrame (.entry s.number p items))
  change Takes n _ (s.entryTaken (.entry s.number p items)) at takes
  have later := someTasks_untouched (s.entryTaken (.entry s.number p items)).ownEntry
  obtain ⟨k, takes'⟩ := someTasks_takes (s.entryTaken (.entry s.number p items)).ownEntry
  rw [settleCommitted_entry] at commit
  rw [exec_frame rfl, commit]
  generalize (s.entryTaken (.entry s.number p items)).ownEntry = v at became later takes' ⊢
  generalize v.someTasks = w at later takes' ⊢
  generalize s.entryTaken (.entry s.number p items) = u at untouched takes became
  generalize s.ownSlotClosed.takeLiveFrame (.entry s.number p items) = e at eq sameLoss sameTimer sameRows untouched takes
  rw [eq] at untouched
  obtain ⟨commit, image, loader, timeBase, service, loss, rollTimer, links⟩ : v.commit = ownCommitUnit s ∧
      v.image = s.image.applyLive s.roster (.entry s.number p items) ∧ v.loader = s.loader ∧
      v.timeBase = s.timeBase ∧ v.service = s.service ∧ v.asm.lossSet = s.asm.lossSet ∧
      v.asm.rollTimer = s.asm.rollTimer ∧
      v.asm.rows.map ContributionRow.onLink = s.asm.rows.map ContributionRow.onLink := by
    rw [became]
    exact ⟨untouched.commit, untouched.image, untouched.loader, untouched.timeBase, untouched.service,
      untouched.lossSet.trans sameLoss, untouched.rollTimer.trans sameTimer,
      untouched.links.trans (congrArg _ sameRows)⟩
  have active : v.lifecycle = .active := by rw [became]
  have posted : .lifecycleToEvaluator ∈ v.agenda := by simp [became]
  have opened := takes'.opens active (.inr posted)
  have roster : v.roster = restartSilences s.number
      (rosterEffect s.number true (.entry s.number p items) s.roster) := by rw [became]
  have attempts : v.join.attempts = 0 := by rw [became]
  have rows := (rowsEntered_committed w.asm.rows items).trans (congrArg _ (later.links.trans links))
  refine ⟨_, rfl, ?_⟩
  have kept := finish_untouched (w.entrySettled items)
  have onLink := kept.links.trans rows
  obtain ⟨ownActive, gate⟩ := finish_opens (s := w.entrySettled items) (later.lifecycle.trans active) opened
  have image' := (kept.image.trans later.image).trans image
  have roster' := (kept.roster.trans later.roster).trans roster
  refine ⟨kept.lifecycle.trans (later.lifecycle.trans active),
    (congrArg JoinController.attempts (kept.join.trans later.join)).trans attempts,
    (kept.commit.trans later.commit).trans commit,
    (congrArg ImageBlock.standing image').trans complete, congrArg ImageBlock.points image', ?_, fun y _ other => ?_,
    (kept.rollTimer.trans later.rollTimer).trans rollTimer, kept.rollDue, kept.joinSlot,
    (kept.lossSet.trans later.lossSet).trans loss, ?_, fun i r at_i => row_of_onLink onLink at_i,
    (kept.service.trans later.service).trans service, (kept.loader.trans later.loader).trans loader,
    (kept.timeBase.trans later.timeBase).trans timeBase, ownActive, gate, n, k, e, u, v, w, _, ?_, takes, ?_, takes',
    rfl, rfl⟩
  · rw [roster', ownEntry_roster own, if_pos rfl]
  · rw [roster', ownEntry_roster own, if_neg other]
  · simpa using congrArg List.length onLink
  · rw [eq]
    rfl
  · rw [became]

end

end Sys2Proof.Machine

/-! SUPPORT. What a listener and a joiner take from the frames of other stations (R21, R22, R55, R84, R91, R96, R99,
R103, R108). -/

namespace Sys2Proof.Machine

/-! ### A commit seen in LISTEN (R55, R96, R99) -/

section
variable {s : State} {f : Frame}

/-- R46, R60: the commit unit of a listener when the slot of a peer's frame has closed; the veto count stays. -/
def CommitUnit.listened (c : CommitUnit) : CommitUnit :=
  { c with idle := 0, reception := none, pacing := none, stopped := false }

theorem noteCandidate_lifecycle (s : State) (f : Frame) : (s.noteCandidate f).lifecycle = s.lifecycle := by
  unfold State.noteCandidate
  split <;> rfl

theorem applyFounding_lifecycle (s : State) (f : Frame) : (s.applyFounding f).lifecycle = s.lifecycle := by
  unfold State.applyFounding
  repeat' split
  all_goals rfl

theorem deliverListening_lifecycle (s : State) (f : Frame) :
    (s.deliverListening f false).lifecycle = s.lifecycle := by
  simp only [State.deliverListening, Bool.false_eq_true, if_false]
  split
  · rw [applyFounding_lifecycle, noteCandidate_lifecycle]
  · exact noteCandidate_lifecycle s f

/-- R55, R96: the path of a well-formed frame of another number at a listener. -/
theorem commitFrame_listen (awake : s.loader.held = false) (life : s.lifecycle = .listen)
    (notOwn : s.commit.flownAs? f = none) (ok : s.received? f = some (.ok f)) (other : frameSender f ≠ s.number) :
    s.commitFrame f = (State.noteActivity { s with commit := s.commit.listened }).deliverListening f false := by
  have listening : (State.noteActivity { s with commit := s.commit.listened }).lifecycle = .listen := by
    unfold State.noteActivity
    split <;> exact life
  have cleared : (s.frameEnds.endPacing.noteActivity).vetoesCleared =
      State.noteActivity { s with commit := s.commit.listened } :=
    if_neg (by rw [show s.frameEnds.endPacing.noteActivity.lifecycle = .listen from listening]; decide)
  have number : (State.noteActivity { s with commit := s.commit.listened }).number = s.number := by
    unfold State.noteActivity
    split <;> rfl
  rw [State.commitFrame, if_neg (by simp [awake]), if_neg (by simp [life, Lifecycle.onMedium]), notOwn]
  simp only [State.peerCommitted, ok, cleared]
  have deliver : (State.noteActivity { s with commit := s.commit.listened }).deliver f false =
      (State.noteActivity { s with commit := s.commit.listened }).deliverListening f false := by
    simp only [State.deliver, listening]
  rw [number, if_neg other, deliver]
  refine if_neg ?_
  rw [deliverListening_lifecycle, listening]
  simp [Lifecycle.participates]

/-- R55: a frame of a listener whose listen period is over and that does not found. -/
theorem noteCandidate_untimed (untimed : s.join.listenTimer = none) : s.noteCandidate f = s := by
  simp [State.noteCandidate, untimed]

theorem noteActivity_untimed (untimed : s.join.listenTimer = none) : s.noteActivity = s := by
  simp [State.noteActivity, untimed]

/-- R55: a commit seen while the listen period runs. -/
theorem noteActivity_timed (life : s.lifecycle = .listen) (timed : s.join.listenTimer ≠ none) :
    s.noteActivity = { s with join := { s.join with activity := true } } := by
  simp [State.noteActivity, life, Option.isSome_iff_ne_none.mpr timed]

/-- R96: the candidates while the listen period runs. -/
theorem noteCandidate_timed (timed : s.join.listenTimer ≠ none) :
    s.noteCandidate f = { s with join := { s.join with
      candidates := if namesCandidate f then insertStation (frameSender f) s.join.candidates
        else s.join.candidates } } := by
  unfold State.noteCandidate
  rw [Option.isSome_iff_ne_none.mpr timed, Bool.true_and]
  split <;> rfl

/-- A listener that does not found notes the candidate alone. -/
theorem deliverListening_idle (standing : s.image.standing ≠ .founding) :
    s.deliverListening f false = s.noteCandidate f :=
  if_neg standing

/-- R55, R96: a listener that does not found, while the listen period runs. -/
theorem deliverListening_timed (life : s.lifecycle = .listen) (timed : s.join.listenTimer ≠ none)
    (standing : s.image.standing ≠ .founding) :
    s.noteActivity.deliverListening f false = { s with join := { s.join with
      activity := true
      candidates := if namesCandidate f then insertStation (frameSender f) s.join.candidates
        else s.join.candidates } } := by
  rw [noteActivity_timed life timed]
  exact (deliverListening_idle (s := { s with join := { s.join with activity := true } }) standing).trans
    (noteCandidate_timed (s := { s with join := { s.join with activity := true } }) timed)

/-- R80, R84: only a JOIN is accepted of a station that is not on the link. -/
theorem accepts_offLink {r : Roster} (sender : r.stateOf (frameSender f) = .absent ∨ r.stateOf (frameSender f) = .lost)
    (notJoin : isJoin f = false) : accepts r f = false := by
  unfold accepts
  rcases sender with sender | sender <;> rw [sender] <;> cases f <;> simp_all [isJoin]

/-- Settles O32: the path of the commit at a listener, then the candidate of the listen period, or the founding
image. -/
theorem listenerFollowsCommits : Obligations.ListenerFollowsCommits := by
  intro s c f carries awake life notOwn ok other
  have commit := commitFrame_listen awake life notOwn ok other
  set unit := s.commit.listened
  have untimed : s.join.listenTimer = none → s.commitFrame f =
      if s.image.standing = .founding then State.applyFounding { s with commit := unit } f
      else { s with commit := unit } := fun untimed => by
    rw [commit, noteActivity_untimed (s := { s with commit := unit }) untimed, State.deliverListening,
      noteCandidate_untimed (s := { s with commit := unit }) untimed]
    rfl
  rw [exec_frame carries]
  refine ⟨fun timed standing => ?_, fun ended standing => ?_, fun ended standing accepted => ?_,
    fun ended standing notJoin sender => ?_⟩
  · rw [commit, deliverListening_timed (s := { s with commit := unit }) life timed (by simp [standing])]
    exact answer_settles _
  · rw [untimed ended, if_neg (by simp [standing])]
    exact answer_settles _
  · have accepted' : accepts (State.roster { s with commit := unit }) f = true := accepted
    rw [untimed ended, if_pos standing, State.applyFounding, if_pos accepted']
    exact answer_settlesBy _
  · have ignored : accepts s.roster f = false := accepts_offLink sender notJoin
    have spoiled : spoils s.roster f = true := by simpa [spoils, notJoin, ignored] using sender
    have ignored' : accepts (State.roster { s with commit := unit }) f = false := ignored
    have spoiled' : spoils (State.roster { s with commit := unit }) f = true := spoiled
    rw [untimed ended, if_pos standing, State.applyFounding, if_neg (by simp [ignored']), if_pos spoiled']
    exact answer_settles _

end

/-! ### The parts at a joiner (R21, R22, R103, R107, R108) -/

section
variable {s : State} {x : Station} {k : Nat} {body : PartBody}

/-- R103: the path of an IMAGE part to a joiner whose image is not complete. -/
theorem commitFrame_part (awake : s.loader.held = false) (life : s.lifecycle = .joining)
    (notOwn : s.commit.flownAs? (.image x s.number k body) = none)
    (ok : s.received? (.image x s.number k body) = some (.ok (.image x s.number k body))) (other : x ≠ s.number)
    (incomplete : s.image.standing ≠ .complete) :
    s.commitFrame (.image x s.number k body) = (s.slotClosed.takePart x k body).checkIsolation s.roster := by
  have deliver : s.slotClosed.deliver (.image x s.number k body) false = s.slotClosed.takePart x k body := by
    have life' : s.slotClosed.lifecycle = .joining := life
    have incomplete' : s.slotClosed.image.standing ≠ .complete := incomplete
    have self : s.slotClosed.number = s.number := rfl
    simp [State.deliver, life', incomplete', State.deliverJoiner, namesLost, self]
  rw [commitFrame_participates awake (by simp [life, Lifecycle.participates]) notOwn ok other]
  change (s.slotClosed.deliver _ false).checkIsolation s.roster = _
  rw [deliver]

/-- R112: a station whose image is not complete is not out of step. -/
theorem checkIsolation_incomplete (before : Roster) (incomplete : s.image.standing ≠ .complete) :
    s.checkIsolation before = s := if_neg (by simp [incomplete])

/-- R112: nor is one without strays. -/
theorem checkIsolation_noStray (before : Roster) (none : s.join.stray = []) : s.checkIsolation before = s :=
  checkIsolation_stays (by simp [State.isolatedSince, State.outnumbered, none])

/-- R103: the joiner once the part is taken that it expects. -/
def State.partTaken (s : State) (x : Station) (body : PartBody) : State :=
  { s with join := { s.join with
    respondent := some x
    parts := s.join.parts ++ [body]
    answerTimer := none
    gapTimer := some 0 } }

theorem takesPart_iff {j : JoinController} : takesPart j x k = true ↔
    j.awaiting = false ∧ k = j.parts.length ∧ (j.respondent = some x ∨ j.respondent = none ∧ k = 0) := by
  unfold takesPart
  cases j.respondent <;> simp [and_assoc]

/-- R103: every part that is not the expected one is disregarded. -/
theorem takePart_disregarded (refused : takesPart s.join x k = false) : s.takePart x k body = s := by
  simp [State.takePart, refused]

/-- R103, R108: the expected part of a joiner without a founding image. -/
theorem takePart_expected (taken : takesPart s.join x k = true) (standing : s.image.standing = .none) :
    s.takePart x k body =
      if k = 32 then (s.partTaken x body).completeFromParts else s.partTaken x body := by
  simp [State.takePart, taken, standing, State.partTaken]

/-- R107: part 0 ends a founding image. -/
theorem takePart_frozen (taken : takesPart s.join x 0 = true) (standing : s.image.standing = .frozen) :
    s.takePart x 0 body =
      State.partTaken { s.giveUpFounding with join := { s.giveUpFounding.join with candidates := [] } } x body := by
  simp [State.takePart, taken, standing, State.partTaken]

/-- Settles O34: the path of the part, then by whether it is the expected one, by the image's standing and by whether it
is the last. -/
theorem joinerTakesTheExpectedPart : Obligations.JoinerTakesTheExpectedPart := by
  intro s x k body awake life notOwn ok other
  refine ⟨fun standing more next waiting sender => ?_, fun standing unexpected => ?_,
    fun standing first empty waiting sender => ?_, fun standing last next waiting sender => ?_⟩
  · have taken : takesPart s.slotClosed.join x k = true := takesPart_iff.mpr ⟨waiting, next, sender⟩
    have step := takePart_expected (s := s.slotClosed) (body := body) taken standing
    rw [if_neg (Nat.ne_of_lt more)] at step
    rw [exec_frame rfl, commitFrame_part awake life notOwn ok other (by simp [standing]), step,
      checkIsolation_incomplete]
    · exact answer_settles _
    · show s.image.standing ≠ .complete
      simp [standing]
  · have incomplete : s.image.standing ≠ .complete := by rcases standing with h | h <;> simp [h]
    have refused : takesPart s.slotClosed.join x k = false := by
      refine Bool.eq_false_iff.mpr fun taken => ?_
      obtain ⟨waiting, next, sender⟩ := takesPart_iff.mp taken
      rcases unexpected with h | h | ⟨r, h, notSender⟩ | ⟨h, notFirst⟩
      · exact h next
      · exact absurd (h.symm.trans waiting) (by simp)
      · rcases sender with e | ⟨e, -⟩
        · exact notSender (Option.some.inj (h.symm.trans e))
        · exact absurd (h.symm.trans e) (by simp)
      · rcases sender with e | ⟨-, e⟩
        · exact absurd (h.symm.trans e) (by simp)
        · exact notFirst e
    rw [exec_frame rfl, commitFrame_part awake life notOwn ok other incomplete, takePart_disregarded refused,
      checkIsolation_incomplete (s := s.slotClosed) _ incomplete]
    exact answer_settles _
  · subst first
    have taken : takesPart s.slotClosed.join x 0 = true :=
      takesPart_iff.mpr ⟨waiting, (congrArg List.length empty).symm, sender.imp_right fun h => ⟨h, rfl⟩⟩
    have discarded : ImageBlock.reset.standing ≠ .complete := by decide
    have parts : s.join.parts ++ [body] = [body] := by rw [empty]; rfl
    rw [exec_frame rfl, commitFrame_part awake life notOwn ok other (by simp [standing]),
      takePart_frozen taken standing, checkIsolation_incomplete]
    · rw [← parts]
      exact answer_settles _
    · exact discarded
  · subst last
    have taken : takesPart s.slotClosed.join x 32 = true := takesPart_iff.mpr ⟨waiting, next.symm, .inl sender⟩
    rw [exec_frame rfl, commitFrame_part awake life notOwn ok other (by simp [standing]),
      takePart_expected taken standing, if_pos rfl, checkIsolation_noStray _ rfl]
    exact answer_settlesBy _

end

end Sys2Proof.Machine

/-! SUPPORT. The commits of an ACTIVE station's own frames: what they hand on, and their outcome at the assembler, the
respondent and the service unit (R58, R60, R66, R70, R72 to R74, R101, R112, R168, R173). -/

namespace Sys2Proof.Machine

/-! ### No request in flight (R70) -/

/-- No entry of the request list is in flight. -/
def NoneFlying (l : List RequestEntry) : Prop := ∀ e ∈ l, e.flying = false

theorem requestsCommitted_noneFlying (l : List RequestEntry) : NoneFlying (requestsCommitted l) := fun e he => by
  simpa using (List.mem_filter.mp he).2

theorem requestHeld_noneFlying {l : List RequestEntry} (h : NoneFlying l) (p : Point) (wish : Wish) :
    NoneFlying (requestHeld l p wish) := by
  intro e he
  unfold requestHeld at he
  split at he
  · obtain ⟨e', mem, rfl⟩ := List.mem_map.mp he
    split
    · exact h e' mem
    · exact h e' mem
  · rcases List.mem_append.mp he with mem | mem
    · exact h e mem
    · rw [List.mem_singleton.mp mem]

theorem requestPulse_noneFlying {l : List RequestEntry} (h : NoneFlying l) (p : Point) :
    NoneFlying (requestPulse l p) := by
  intro e he
  unfold requestPulse at he
  split at he
  · obtain ⟨e', mem, rfl⟩ := List.mem_map.mp he
    split
    · exact h e' mem
    · exact h e' mem
  · rcases List.mem_append.mp he with mem | mem
    · exact h e mem
    · rw [List.mem_singleton.mp mem]

/-- No hand-off puts a request into flight. -/
def KeepsGrounded (s t : State) : Prop := NoneFlying s.asm.requests → NoneFlying t.asm.requests

theorem keepsGrounded_carried : Carried KeepsGrounded where
  refl _ := id
  trans h k := k ∘ h
  free _ _ := id
  agenda _ _ := id
  echoes _ _ := id
  eval _ _ := id
  timers _ _ := id
  report s k subject life := by
    unfold KeepsGrounded
    rw [takeReport_requests]
    exact id
  trigger _ := id
  group _ _ := id
  request s r := by
    unfold State.takeEdgeRequest
    split
    · exact fun h => requestHeld_noneFlying h _ _
    · exact fun h => requestHeld_noneFlying h _ _
    · split
      · exact fun h => requestPulse_noneFlying h _
      · unfold KeepsGrounded State.report
        rw [takeReport_requests]
        exact id
    all_goals exact id
  output _ _ _ := id
  field _ := id
  desired _ _ _ := id

/-! ### The outcome COMMITTED (R66, R70, R73, R77) -/

/-- R66, R70, R73: what every own commit does at the assembler. -/
def State.outcomeTaken (s : State) : State :=
  { s with asm := { s.asm with
    rollDue := false
    rows := rowsCommitted s.asm.rows
    requests := requestsCommitted s.asm.requests } }

/-- R74: a frame whose claim was withdrawn in flight leaves every slot. -/
theorem settleCommitted_withdrawn {fl : Flight} (notRestart : fl.origin ≠ .sessionPart true)
    (withdrawn : fl.withdrawn = true) (s : State) (wasLost : Bool) : s.settleCommitted fl wasLost = s.outcomeTaken := by
  unfold State.settleCommitted
  rw [if_neg notRestart, if_pos withdrawn]
  rfl

theorem settleCommitted_kept {fl : Flight} (notRestart : fl.origin ≠ .sessionPart true)
    (kept : fl.withdrawn = false) (s : State) (wasLost : Bool) :
    s.settleCommitted fl wasLost = s.outcomeTaken.settleSlot fl wasLost := by
  unfold State.settleCommitted
  rw [if_neg notRestart, if_neg (by simp [kept])]
  rfl

/-- R101: the respondent when its part has committed. -/
theorem partSent_eq {s : State} {sn : Snapshot} (h : s.join.snapshot = some sn) : s.partSent =
    { s with
      join := { s.join with snapshot := if sn.next < 32 then some { sn with next := sn.next + 1 } else none }
      asm := { s.asm with partSlot := decide (sn.next < 32) } } := by
  unfold State.partSent
  rw [h]
  dsimp only
  split <;> simp [*]

/-- R173: the service unit when its RELEASE has committed. -/
theorem releaseCommitted_eq (s : State) (wasLost : Bool) : s.releaseCommitted wasLost =
    { s with
      asm := { s.asm with responseSlot := (s.releaseCommitted wasLost).asm.responseSlot }
      service := (s.releaseCommitted wasLost).service } := by
  unfold State.releaseCommitted
  split
  · split
    · rw [handResponse_eq]
    · rfl
  · rfl

/-- R168: a releasing session is given its answer, and an empty slot takes the response. -/
theorem releaseCommitted_answer {s : State} {ss : Session} (session : s.service.session = some ss)
    (releasing : ss.releasing = true) (wasLost : Bool) :
    (s.releaseCommitted wasLost).service = { s.service with
      session := some { ss with releasing := false, answer := if wasLost then .done else .refused } } ∧
    (s.releaseCommitted wasLost).asm.responseSlot =
      s.asm.responseSlot.or (nextResponse (s.releaseCommitted wasLost).service) := by
  unfold State.releaseCommitted
  simp [session, releasing, handResponse_eq]

/-- R77: the outcome of an own frame reaches the assembler, the respondent and the service unit alone. -/
theorem settleCommitted_only {fl : Flight} (notRestart : fl.origin ≠ .sessionPart true) (s : State) (wasLost : Bool) :
    s.settleCommitted fl wasLost = { s with
      join := { s.join with snapshot := (s.settleCommitted fl wasLost).join.snapshot }
      asm := (s.settleCommitted fl wasLost).asm
      service := (s.settleCommitted fl wasLost).service } := by
  cases withdrawn : fl.withdrawn with
  | true => rw [settleCommitted_withdrawn notRestart withdrawn]; rfl
  | false =>
    rw [settleCommitted_kept notRestart withdrawn]
    unfold State.settleSlot
    split
    · split <;> rfl
    · rfl
    · rfl
    · rfl
    · unfold State.partSent
      split
      · split <;> rfl
      · rfl
    · rfl
    · rw [releaseCommitted_eq]; rfl
    · rw [State.busyAnswered, handResponse_eq]; rfl
    · unfold State.partCommitted
      split <;> rw [handResponse_eq] <;> rfl

/-! ### The path of an own frame of an ACTIVE station -/

/-- The own frames that neither the respondent nor the service unit takes as a commit. -/
def takenPlainly : Frame → Bool
  | .update .. | .rollcall .. | .busy .. | .image .. | .svcRsp .. | .release .. => true
  | .join .. | .entry .. | .loss .. | .svcReq .. => false

/-- R18 to R20, R54: an ACTIVE station when the effects of its own frame have been taken, its hand-offs still
waiting. -/
def State.ownTaken (s : State) (f : Frame) : State :=
  { s with
    commit := ownCommitUnit s
    image := s.image.applyLive s.roster f
    roster := rosterEffect s.number true f s.roster
    join := { s.join with stray := eraseEntry s.number s.join.stray }
    agenda := s.agenda ++ handedOn s f true (s.image.applyLive s.roster f) (rosterEffect s.number true f s.roster) }

section
variable {s : State} {fl : Flight}

/-- R41, R54, R77, R112: the path of an own frame to the end of its commit, where the station goes on. -/
theorem commitFrame_ownActive (h : OwnFrame s fl) (life : s.lifecycle = .active)
    (own : s.roster.stateOf s.number = .active) (noRequest : ∀ x y tag q, fl.frame ≠ .svcReq x y tag q)
    (notLost : namesLost s.number fl.frame = false) (notRestart : fl.origin ≠ .sessionPart true) :
    s.commitFrame fl.frame = (((s.ownSlotClosed.takeLiveFrame fl.frame).someTasks).settleCommitted fl
      (targetLost s.roster fl.frame)).checkIsolation s.roster ∧
    ((((s.ownSlotClosed.takeLiveFrame fl.frame).someTasks).settleCommitted fl
      (targetLost s.roster fl.frame)).isolatedSince s.roster = true ↔
        FallsOut s s.number (rosterEffect s.number true fl.frame s.roster)) := by
  have accepted : accepts s.roster fl.frame = true := by
    unfold accepts
    rw [h.sender, own]
  have deliver : s.ownSlotClosed.deliver fl.frame true = s.ownSlotClosed.takeLiveFrame fl.frame := by
    have life' : s.ownSlotClosed.lifecycle = .active := life
    rw [← deliverLive_own accepted notLost]
    simp only [State.deliver, life']
  have eq := takeLiveFrame_own h.sender noRequest
  have untouched := someTasks_untouched (s.ownSlotClosed.takeLiveFrame fl.frame)
  have only := settleCommitted_only notRestart (s.ownSlotClosed.takeLiveFrame fl.frame).someTasks
    (targetLost s.roster fl.frame)
  refine ⟨by rw [commitFrame_own h (by simp [life, Lifecycle.onMedium]), deliver], isolatedSince_iff ?_ ?_ ?_⟩
  · rw [only]
    exact untouched.loader.trans (by rw [eq])
  · rw [only]
    exact untouched.roster.trans (by rw [eq])
  · rw [only]
    exact (congrArg JoinController.stray untouched.join).trans (by rw [eq])

/-- R112: no own frame of these leaves fewer heard peers. -/
theorem ownFrame_stays {f : Frame} (plain : takenPlainly f = true) :
    ¬ FallsOut s s.number (rosterEffect s.number true f s.roster) := by
  refine fun falls => absurd falls.1 (Nat.not_lt.mpr ?_)
  cases f with
  | release x y =>
    have fewer := heardPeers_release s.number s.number y true s.roster
    rw [breakSilence_own] at fewer
    exact fewer
  | update | rollcall | busy | image | svcRsp => exact Nat.le_refl _
  | join | entry | loss | svcReq => exact absurd plain (by simp [takenPlainly])

/-- R54: the effects of these frames, whole. -/
theorem takeLiveFrame_ownPlain {f : Frame} (sender : frameSender f = s.number) (plain : takenPlainly f = true)
    (life : s.lifecycle = .active) : s.ownSlotClosed.takeLiveFrame f = s.ownTaken f := by
  have noRequest : ∀ x y tag q, f ≠ .svcReq x y tag q := by
    rintro x y tag q rfl
    cases plain
  have eq := takeLiveFrame_own sender noRequest
  have agenda := takeLiveFrame_own_agenda sender noRequest
  have stays : (s.ownSlotClosed.takeLiveFrame f).isolatedSince s.roster = false := by
    refine Bool.eq_false_iff.mpr fun isolated => ownFrame_stays (s := s) plain ?_
    refine (isolatedSince_iff ?_ ?_ ?_).mp isolated <;> rw [eq]
  rw [stays, decide_eq_true life] at agenda
  have effects : s.ownSlotClosed.effectsOf f = s.ownSlotClosed.applyLiveFrame f := by
    cases f with
    | update | rollcall | busy | image | svcRsp | release => rfl
    | join | entry | loss | svcReq => cases plain
  have sender' : frameSender f = s.ownSlotClosed.number := sender
  have loss : lossSetAfter s.ownSlotClosed.number f s.ownSlotClosed.asm.lossSet = s.ownSlotClosed.asm.lossSet := by
    unfold lossSetAfter
    rw [if_pos sender']
    cases f with
    | update | rollcall | busy | image | svcRsp | release => rfl
    | join | entry | loss | svcReq => cases plain
  have whole : s.ownSlotClosed.takeLiveFrame f =
      { s.ownSlotClosed.effectsOf f with agenda := (s.ownSlotClosed.takeLiveFrame f).agenda } := rfl
  rw [whole, agenda, effects, applyLiveFrame_eq, loss, sender', breakSilence_own]
  rfl

/-- R18 to R20, R54, R77: the path of these frames: their effects, some hand-offs, then their outcome. -/
theorem commitFrame_ownPlain (h : OwnFrame s fl) (life : s.lifecycle = .active)
    (own : s.roster.stateOf s.number = .active) (plain : takenPlainly fl.frame = true)
    (notRestart : fl.origin ≠ .sessionPart true) :
    ∃ n u, Takes n (s.ownTaken fl.frame) u ∧ Untouched (s.ownTaken fl.frame) u ∧
      s.commitFrame fl.frame = u.settleCommitted fl (targetLost s.roster fl.frame) := by
  have noRequest : ∀ x y tag q, fl.frame ≠ .svcReq x y tag q := fun x y tag q e => by
    rw [e] at plain
    cases plain
  have notLost : namesLost s.number fl.frame = false := by
    generalize fl.frame = f at plain
    cases f with
    | update | rollcall | busy | image | svcRsp | release => rfl
    | join | entry | loss | svcReq => cases plain
  obtain ⟨commit, isolated⟩ := commitFrame_ownActive h life own noRequest notLost notRestart
  rw [checkIsolation_stays (Bool.eq_false_iff.mpr fun i => ownFrame_stays plain (isolated.mp i)),
    takeLiveFrame_ownPlain h.sender plain life] at commit
  obtain ⟨n, takes⟩ := someTasks_takes (s.ownTaken fl.frame)
  exact ⟨n, _, takes, someTasks_untouched _, commit⟩

end

end Sys2Proof.Machine

/-! SUPPORT. The obligation about an ACTIVE station's own frames, claim by claim (R58, R66, R70 to R74, R101, R112,
R168, R173). -/

namespace Sys2Proof.Machine

/-- R66, R70, R73: COMMITTED at the assembler names no other point in the contribution table. -/
theorem outcomeTaken_sameStation (s : State) : SameStation s s.outcomeTaken := by
  refine ⟨rfl, rfl, rfl, rfl, rfl, ?_⟩
  have points := congrArg (List.map Prod.fst) (rowsCommitted_onLink s.asm.rows)
  rw [List.map_map, List.map_map] at points
  exact points

/-- R18, R54, R58: what the commit of an own frame that is taken plainly leaves of the link blocks. -/
structure OwnSettled (s : State) (f : Frame) (t : State) : Prop where
  commit    : t.commit = ownCommitUnit s
  roster    : t.roster = rosterEffect s.number true f s.roster
  image     : t.image = s.image.applyLive s.roster f
  lifecycle : t.lifecycle = s.lifecycle
  loader    : t.loader = s.loader
  timeBase  : t.timeBase = s.timeBase
  pending   : t.pending = s.pending

section
variable {s u v : State} {f : Frame} {c : Instr} {n : Nat}

theorem ownSettled_finish (untouched : Untouched (s.ownTaken f) u)
    (only : v = { u with join := v.join, asm := v.asm, service := v.service }) : OwnSettled s f v.finish := by
  have kept := finish_untouched v
  rw [only] at kept
  rw [only]
  exact ⟨kept.commit.trans untouched.commit, kept.roster.trans untouched.roster, kept.image.trans untouched.image,
    kept.lifecycle.trans untouched.lifecycle, kept.loader.trans untouched.loader,
    kept.timeBase.trans untouched.timeBase, kept.pending.trans untouched.pending⟩

theorem ownTaken_handsOn (carries : c.frame? = some f) (takes : Takes n (s.ownTaken f) u)
    (commit : s.commitFrame f = v) (only : v = { u with asm := v.asm, service := v.service }) : HandsOnOwn c s f :=
  ⟨n, s.ownTaken f, u, v, rfl, takes, only, by rw [exec_frame carries, commit]; rfl⟩

/-- R66, R70: the rows and the requests after COMMITTED, once every hand-off has been taken. -/
theorem outcomeTaken_finish (untouched : Untouched (s.ownTaken f) u) :
    u.outcomeTaken.finish.asm.rows.map (fun r => (r.point, r.link, r.flying)) =
      s.asm.rows.map (fun r => (r.point, r.flying.getD r.link, none)) ∧
    ∀ e ∈ u.outcomeTaken.finish.asm.requests, e.flying = false := by
  refine ⟨?_, keepsGrounded_carried.finish u.outcomeTaken (requestsCommitted_noneFlying u.asm.requests)⟩
  have links := congrArg (List.map fun r : Point × Bool × Option Bool => (r.1, r.2.2.getD r.2.1, (none : Option Bool)))
    untouched.links
  rw [List.map_map, List.map_map] at links
  exact ((finish_untouched u.outcomeTaken).links.trans (rowsCommitted_onLink u.asm.rows)).trans links

end

section
variable {s : State} (life : s.lifecycle = .active) (own : s.roster.stateOf s.number = .active)
include life own

/-- R66, R70, R73: this station's UPDATE and ROLLCALL. -/
theorem ownItems_settle {c : Instr} {f : Frame} {origin : Origin} (carries : c.frame? = some f)
    (h : OwnFrame s ⟨f, origin, false⟩) (plain : takenPlainly f = true)
    (slotless : origin = .update ∨ origin = .rollcall) :
    HandsOnOwn c s f ∧ ∃ t, exec c s = .next t ∧ OwnSettled s f t ∧
      t.asm.rollDue = false ∧ t.asm.rollTimer = s.asm.rollTimer ∧ t.service = s.service ∧
      t.asm.lossSet = s.asm.lossSet ∧
      t.asm.rows.map (fun r => (r.point, r.link, r.flying)) =
        s.asm.rows.map (fun r => (r.point, r.flying.getD r.link, none)) ∧
      ∀ e ∈ t.asm.requests, e.flying = false := by
  have notRestart : origin ≠ .sessionPart true := by rcases slotless with rfl | rfl <;> simp
  obtain ⟨n, u, takes, untouched, commit⟩ := commitFrame_ownPlain h life own plain notRestart
  have outcome : u.settleCommitted ⟨f, origin, false⟩ (targetLost s.roster f) = u.outcomeTaken := by
    rw [settleCommitted_kept notRestart rfl]
    rcases slotless with rfl | rfl <;> rfl
  rw [outcome] at commit
  change s.commitFrame f = u.outcomeTaken at commit
  have kept := finish_untouched u.outcomeTaken
  obtain ⟨rows, requests⟩ := outcomeTaken_finish untouched
  exact ⟨ownTaken_handsOn carries takes commit rfl, _, by rw [exec_frame carries, commit]; rfl,
    ownSettled_finish untouched rfl, kept.rollDue, kept.rollTimer.trans untouched.rollTimer,
    kept.service.trans untouched.service, kept.lossSet.trans untouched.lossSet, rows, requests⟩

/-- R72, R77, R112: the path of this station's LOSS of another to the end of its commit. -/
theorem commitFrame_ownLoss {y : Station} (other : y ≠ s.number)
    (h : OwnFrame s ⟨.loss s.number y, .loss, false⟩) :
    let u := (s.ownSlotClosed.takeLiveFrame (.loss s.number y)).someTasks
    s.commitFrame (.loss s.number y) = u.outcomeTaken.checkIsolation s.roster ∧
    (u.outcomeTaken.isolatedSince s.roster = true ↔
      FallsOut s s.number (rosterEffect s.number true (.loss s.number y) s.roster)) :=
  commitFrame_ownActive h life own (by simp) (by simp [namesLost, other]) (by simp)

/-- R112, R113: this station's LOSS of another, where the strays then outnumber the heard peers. -/
theorem ownLoss_fallsOff {y : Station} (complete : s.image.standing = .complete) (other : y ≠ s.number)
    (h : OwnFrame s ⟨.loss s.number y, .loss, false⟩)
    (falls : FallsOut s s.number (rosterEffect s.number true (.loss s.number y) s.roster))
    (closed : s.service.restartOpen = false) : FallsOff (.loss s.number y) s := by
  obtain ⟨commit, isolated⟩ := commitFrame_ownLoss life own other h
  have eq := takeLiveFrame_own (s := s) (f := .loss s.number y) rfl (by simp)
  have untouched := someTasks_untouched (s.ownSlotClosed.takeLiveFrame (.loss s.number y))
  have keeps := keepsRecord_carried.someTasks (s.ownSlotClosed.takeLiveFrame (.loss s.number y))
  have closed' : (s.ownSlotClosed.takeLiveFrame (.loss s.number y)).someTasks.outcomeTaken.service.restartOpen =
      false := (congrArg ServiceUnit.restartOpen untouched.service).trans (takeLiveFrame_restartOpen (by simp) closed)
  generalize s.ownSlotClosed.takeLiveFrame (.loss s.number y) = e at commit isolated eq untouched closed' keeps
  have detaches : s.commitFrame (.loss s.number y) = e.someTasks.outcomeTaken.detach (some .namedLost) := by
    have life' : e.someTasks.outcomeTaken.lifecycle = .active := untouched.lifecycle.trans (by rw [eq, life])
    have complete' : e.someTasks.outcomeTaken.image.standing = .complete :=
      (congrArg ImageBlock.standing untouched.image).trans (by rw [eq]; exact complete)
    rw [commit, State.checkIsolation, life', complete', isolated.mpr falls]
    rfl
  have effects : SameStation s e := by
    rw [eq]
    exact ⟨rfl, rfl, rfl, rfl, rfl, rfl⟩
  have same : SameStation s e.someTasks.outcomeTaken :=
    (effects.trans untouched.sameStation).trans (outcomeTaken_sameStation _)
  obtain ⟨record, line⟩ := detach_cause_record closed' .namedLost
  refine ⟨_, (exec_frame rfl s).trans (congrArg State.answer detaches),
    detach_cause_detached same closed' .namedLost, line, fun r hr => record r (keeps r ?_)⟩
  rw [eq]
  exact hr

/-- R72: this station's LOSS of another, where it goes on. -/
theorem ownLoss_settles {y : Station} (other : y ≠ s.number) (h : OwnFrame s ⟨.loss s.number y, .loss, false⟩)
    (stays : ¬ FallsOut s s.number (rosterEffect s.number true (.loss s.number y) s.roster)) :
    HandsOnOwn (.loss s.number y) s (.loss s.number y) ∧
    ∃ t, exec (.loss s.number y) s = .next t ∧ t.asm.rollDue = false ∧ y ∉ t.asm.lossSet ∧
      t.roster = rosterEffect s.number true (.loss s.number y) s.roster ∧
      t.image.points = frameEffect s.roster (.loss s.number y) s.image.points ∧ t.commit = ownCommitUnit s ∧
      t.lifecycle = .active := by
  obtain ⟨commit, isolated⟩ := commitFrame_ownLoss life own other h
  have eq := takeLiveFrame_own (s := s) (f := .loss s.number y) rfl (by simp)
  have handed := takeLiveFrame_own_agenda (s := s) (f := .loss s.number y) rfl (by simp)
  have untouched := someTasks_untouched (s.ownSlotClosed.takeLiveFrame (.loss s.number y))
  have stays' : (s.ownSlotClosed.takeLiveFrame (.loss s.number y)).isolatedSince s.roster = false := by
    refine Bool.eq_false_iff.mpr fun i => stays ((isolatedSince_iff ?_ ?_ ?_).mp i) <;> rw [eq]
  have loss : lossSetAfter s.number (.loss s.number y) s.asm.lossSet = eraseStation y s.asm.lossSet :=
    congrArg (eraseStation y) (if_pos rfl)
  rw [life, stays', decide_eq_true rfl] at handed
  rw [loss, handed] at eq
  rw [checkIsolation_stays (Bool.eq_false_iff.mpr fun i => stays (isolated.mp i))] at commit
  obtain ⟨n, takes⟩ := someTasks_takes (s.ownSlotClosed.takeLiveFrame (.loss s.number y))
  generalize (s.ownSlotClosed.takeLiveFrame (.loss s.number y)).someTasks = u at commit untouched takes
  generalize s.ownSlotClosed.takeLiveFrame (.loss s.number y) = e at eq untouched takes
  have kept := finish_untouched u.outcomeTaken
  refine ⟨⟨n, e, u, u.outcomeTaken, ?_, takes, rfl, by rw [exec_frame rfl, commit]; rfl⟩,
    u.outcomeTaken.finish, by rw [exec_frame rfl, commit]; rfl, kept.rollDue, ?_, ?_, ?_, ?_, ?_⟩
  · rw [eq]
    rfl
  all_goals rw [eq] at untouched
  · rw [kept.lossSet.trans untouched.lossSet]
    simp [mem_eraseStation]
  · exact kept.roster.trans untouched.roster
  · exact congrArg ImageBlock.points (kept.image.trans untouched.image)
  · exact kept.commit.trans untouched.commit
  · exact (kept.lifecycle.trans untouched.lifecycle).trans life

/-- R73, R168, R173: this station's RELEASE. -/
theorem ownRelease_settles {y : Station} (h : OwnFrame s ⟨.release s.number y, .release, false⟩) :
    HandsOnOwn (.release s.number y) s (.release s.number y) ∧
    ∃ t, exec (.release s.number y) s = .next t ∧ OwnSettled s (.release s.number y) t ∧ t.asm.rollDue = false ∧
      t.asm.releaseSlot = none ∧
      (∀ ss, s.service.session = some ss → ss.releasing = true →
        t.service.session = some { ss with
          releasing := false
          answer := if s.roster.stateOf y = .lost then .done else .refused } ∧
        t.asm.responseSlot =
          if s.asm.responseSlot = none then nextResponse t.service else s.asm.responseSlot) := by
  obtain ⟨n, u, takes, untouched, commit⟩ := commitFrame_ownPlain h life own rfl (by simp)
  set slotless : State := { u.outcomeTaken with asm := { u.outcomeTaken.asm with releaseSlot := none } }
  change s.commitFrame (.release s.number y) = slotless.releaseCommitted (s.roster.stateOf y = .lost) at commit
  have only := releaseCommitted_eq slotless (s.roster.stateOf y = .lost)
  have answer := fun ss session releasing => releaseCommitted_answer (s := slotless) (ss := ss)
    ((congrArg ServiceUnit.session untouched.service).trans session) releasing (s.roster.stateOf y = .lost)
  generalize slotless.releaseCommitted (s.roster.stateOf y = .lost) = v at commit only answer
  have only' : v = { u with join := v.join, asm := v.asm, service := v.service } := by rw [only]; rfl
  have kept := finish_untouched v
  refine ⟨ownTaken_handsOn rfl takes commit (by rw [only]; rfl), v.finish, by rw [exec_frame rfl, commit]; rfl,
    ownSettled_finish untouched only', kept.rollDue.trans (by rw [only]; rfl),
    kept.releaseSlot.trans (by rw [only]), fun ss session releasing => ?_⟩
  obtain ⟨service, slot⟩ := answer ss session releasing
  have before : slotless.asm.responseSlot = s.asm.responseSlot := untouched.responseSlot
  rw [kept.responseSlot, kept.service, slot, before, service]
  refine ⟨by simp only [decide_eq_true_eq], ?_⟩
  cases s.asm.responseSlot <;> rfl

/-- R73, R106: this station's BUSY. -/
theorem ownBusy_settles {y : Station} (h : OwnFrame s ⟨.busy s.number y, .busy y, false⟩) :
    ∃ t, exec (.busy s.number y) s = .next t ∧ OwnSettled s (.busy s.number y) t ∧ t.asm.rollDue = false ∧
      t.asm.busySet = eraseStation y s.asm.busySet := by
  obtain ⟨n, u, -, untouched, commit⟩ := commitFrame_ownPlain h life own rfl (by simp)
  set v : State := { u.outcomeTaken with asm := { u.outcomeTaken.asm with
    busySet := eraseStation y u.outcomeTaken.asm.busySet } }
  change s.commitFrame (.busy s.number y) = v at commit
  have kept := finish_untouched v
  exact ⟨v.finish, by rw [exec_frame rfl, commit]; rfl, ownSettled_finish untouched rfl, kept.rollDue,
    kept.busySet.trans (congrArg (eraseStation y) untouched.busySet)⟩

/-- R73, R101: this station's IMAGE part, by whether it is the last. -/
theorem ownPart_settles {y k : Nat} {body : PartBody} {sn : Snapshot}
    (h : OwnFrame s ⟨.image s.number y k body, .part, false⟩) (snapshot : s.join.snapshot = some sn)
    (next : sn.next = k) :
    ∃ t, exec (.image s.number y k body) s = .next t ∧ OwnSettled s (.image s.number y k body) t ∧
      t.asm.rollDue = false ∧
      t.join.snapshot = (if k < 32 then some { sn with next := k + 1 } else none) ∧
      t.asm.partSlot = decide (k < 32) := by
  obtain ⟨n, u, -, untouched, commit⟩ := commitFrame_ownPlain h life own rfl (by simp)
  have snapshot' : u.outcomeTaken.join.snapshot = some sn :=
    (congrArg JoinController.snapshot untouched.join).trans snapshot
  change s.commitFrame (.image s.number y k body) = u.outcomeTaken.partSent at commit
  rw [partSent_eq snapshot', next] at commit
  have kept := finish_untouched (s.commitFrame (.image s.number y k body))
  have settled := ownSettled_finish (v := s.commitFrame (.image s.number y k body)) untouched (by rw [commit]; rfl)
  rw [commit] at kept settled
  exact ⟨_, by rw [exec_frame rfl, commit]; rfl, settled, kept.rollDue, congrArg JoinController.snapshot kept.join,
    kept.partSlot⟩

/-- R74: an own frame whose claim was withdrawn in flight. -/
theorem ownWithdrawn_settles {c : Instr} {f : Frame} {origin : Origin} (carries : c.frame? = some f)
    (h : OwnFrame s ⟨f, origin, true⟩) (plain : takenPlainly f = true) (notRestart : origin ≠ .sessionPart true) :
    ∃ t, exec c s = .next t ∧ OwnSettled s f t ∧ t.asm.rollDue = false ∧
      t.join.snapshot = s.join.snapshot ∧ t.service = s.service ∧ t.asm.lossSet = s.asm.lossSet ∧
      t.asm.busySet = s.asm.busySet ∧ t.asm.partSlot = s.asm.partSlot ∧
      t.asm.responseSlot = s.asm.responseSlot ∧ t.asm.releaseSlot = s.asm.releaseSlot ∧
      t.asm.joinSlot = s.asm.joinSlot := by
  obtain ⟨n, u, -, untouched, commit⟩ := commitFrame_ownPlain h life own plain notRestart
  rw [settleCommitted_withdrawn notRestart rfl] at commit
  change s.commitFrame f = u.outcomeTaken at commit
  have kept := finish_untouched u.outcomeTaken
  have snapshot : u.outcomeTaken.join.snapshot = s.join.snapshot := by
    show u.join.snapshot = _
    rw [untouched.join]
    rfl
  exact ⟨_, by rw [exec_frame carries, commit]; rfl, ownSettled_finish untouched rfl, kept.rollDue,
    (congrArg JoinController.snapshot kept.join).trans snapshot, kept.service.trans untouched.service,
    kept.lossSet.trans untouched.lossSet, kept.busySet.trans untouched.busySet,
    kept.partSlot.trans untouched.partSlot, kept.responseSlot.trans untouched.responseSlot,
    kept.releaseSlot.trans untouched.releaseSlot, kept.joinSlot.trans untouched.joinSlot⟩

end

/-- Settles O28: the claims in turn, each a lemma above. -/
theorem ownFramesSettle : Obligations.OwnFramesSettle := by
  intro s life own
  refine ⟨fun c f origin items p h kind => ?_, fun y k body complete other => ⟨fun h => ⟨?_, ?_⟩, fun h => ?_,
    fun h => ?_, fun sn h snapshot next => ?_, fun c f origin tag status n payload carries h notRestart kind => ?_⟩⟩
  · obtain ⟨carries, plain, slotless, image⟩ : c.frame? = some f ∧ takenPlainly f = true ∧
        (origin = .update ∨ origin = .rollcall) ∧ s.image.applyLive s.roster f = { s.image with
          points := (frameItems f).foldl (applyItem s.number) s.image.points
          windows := startWindows s.image.windows (frameItems f) } ∧
        rosterEffect s.number true f s.roster = s.roster := by
      rcases kind with ⟨rfl, rfl, rfl⟩ | ⟨rfl, rfl, rfl⟩
      · exact ⟨rfl, rfl, .inl rfl, rfl, rfl⟩
      · exact ⟨rfl, rfl, .inr rfl, rfl, rfl⟩
    obtain ⟨image, roster⟩ := image
    obtain ⟨handsOn, t, step, settled, rollDue, rollTimer, service, lossSet, rows, requests⟩ :=
      ownItems_settle life own carries h plain slotless
    exact ⟨handsOn, t, step, settled.commit, settled.roster.trans roster, settled.lifecycle,
      settled.image.trans image, rollDue, rollTimer, service, lossSet, settled.loader, settled.timeBase,
      settled.pending, rows, requests⟩
  · exact ownLoss_fallsOff life own complete other h
  · exact ownLoss_settles life own other h
  · obtain ⟨handsOn, t, step, settled, rollDue, slot, session⟩ := ownRelease_settles life own h
    exact ⟨handsOn, t, step, rollDue, slot, settled.commit, settled.roster, settled.lifecycle.trans life,
      settled.image, session⟩
  · obtain ⟨t, step, settled, rollDue, busySet⟩ := ownBusy_settles life own h
    exact ⟨t, step, rollDue, busySet, settled.commit⟩
  · obtain ⟨t, step, settled, rollDue, snapshot', slot⟩ := ownPart_settles life own h snapshot next
    refine ⟨t, step, rollDue, settled.commit, fun more => ?_, fun last => ?_⟩
    · rw [snapshot', slot, if_pos more, decide_eq_true more]
      exact ⟨rfl, rfl⟩
    · rw [snapshot', slot, if_neg (Nat.not_lt.mpr last), decide_eq_false (Nat.not_lt.mpr last)]
      exact ⟨rfl, rfl⟩
  · have plain : takenPlainly f = true := by rcases kind with rfl | rfl | rfl | rfl <;> rfl
    have image : s.image.applyLive s.roster f = { s.image with points := frameEffect s.roster f s.image.points } := by
      rcases kind with rfl | rfl | rfl | rfl <;> rfl
    obtain ⟨t, step, settled, rollDue, rest⟩ := ownWithdrawn_settles life own carries h plain notRestart
    exact ⟨t, step, rollDue, settled.commit, settled.lifecycle.trans life, settled.roster,
      settled.image.trans image, rest⟩

end Sys2Proof.Machine

/-! SUPPORT. The frames of other senders that reach no block: malformed frames, stopped frames, and frames joined
midway (R40, R43, R45 to R48, R52, R55, R57). -/

namespace Sys2Proof.Machine

/-! ### The frame of another sender at the close of its slot (R43, R53) -/

/-- R55, R96: the activity mark, in one form for every lifecycle. -/
theorem noteActivity_eq (s : State) : s.noteActivity = { s with
    join := { s.join with
      activity := s.join.activity || (decide (s.lifecycle = .listen) && s.join.listenTimer.isSome) } } := by
  unfold State.noteActivity
  by_cases marks : (decide (s.lifecycle = .listen) && s.join.listenTimer.isSome) = true
  · rw [if_pos marks, marks, Bool.or_true]
  · rw [if_neg marks, Bool.eq_false_iff.mpr marks, Bool.or_false]

section
variable {s : State} {c : Instr} {f : Frame}

theorem noteActivity_listen (life : s.lifecycle = .listen) : s.noteActivity = { s with
    join := { s.join with activity := s.join.activity || s.join.listenTimer.isSome } } := by
  rw [noteActivity_eq, decide_eq_true life, Bool.true_and]

/-- R43, R53: a frame that is not this station's own in flight is judged as another sender's. -/
theorem exec_peerCommitted (carries : c.frame? = some f) (awake : s.loader.held = false)
    (onMedium : s.lifecycle.onMedium = true) (notOwn : s.commit.flownAs? f = none) :
    exec c s = (s.peerCommitted f).answer := by
  rw [exec_frame carries, State.commitFrame, if_neg (by simp [awake]), if_neg (by simp [onMedium]), notOwn]

theorem onMedium_of_participates (part : s.lifecycle.participates = true) : s.lifecycle.onMedium = true := by
  rcases participates_cases part with life | life <;> rw [life] <;> rfl

/-! ### Malformed frames (R40, R52, R57) -/

/-- R46, R60: the commit unit when the slot of a malformed frame has closed, before this station's veto. -/
def State.slotSpoiled (s : State) : State := { s with commit := s.commit.listened }

/-- R57: a veto that is not the fourth in a row is counted. -/
theorem ownVeto_counts (few : s.commit.vetoes < 3) :
    s.slotSpoiled.ownVeto = { s with commit := { s.commit.afterPeer with vetoes := s.commit.vetoes + 1 } } :=
  if_pos few

/-- R52, R57: a malformed frame at a participating station brings its veto and nothing else. -/
theorem peerCommitted_malformed {m : Malformed} (part : s.lifecycle.participates = true)
    (bad : s.received? f = some (.error m)) : s.peerCommitted f = s.slotSpoiled.ownVeto := by
  have part' : s.slotSpoiled.lifecycle.participates = true := part
  have marked : s.frameEnds.endPacing.noteActivity = s.slotSpoiled := noteActivity_participates part'
  rw [State.peerCommitted, bad]
  dsimp only
  rw [marked, if_pos part']

/-- R55: a malformed frame at a station that does not judge is activity. -/
theorem peerCommitted_malformed_listen {m : Malformed} (listens : s.lifecycle.participates = false)
    (bad : s.received? f = some (.error m)) : s.peerCommitted f = s.slotSpoiled.noteActivity := by
  have marked : s.frameEnds.endPacing.noteActivity = s.slotSpoiled.noteActivity := rfl
  have outside : s.slotSpoiled.noteActivity.lifecycle.participates = false := by rw [noteActivity_eq]; exact listens
  rw [State.peerCommitted, bad]
  dsimp only
  rw [marked, if_neg (by simp [outside])]

/-- R46, R48: a frame of which this station has no record is activity. -/
theorem peerCommitted_unrecorded (none : s.received? f = .none) : s.peerCommitted f = s.frameEnds.noteActivity := by
  rw [State.peerCommitted, none]

/-- R57: the fourth veto in a row detaches the station. -/
theorem malformed_detaches {m : Malformed} (exec_eq : exec c s = (s.peerCommitted f).answer)
    (bad : s.received? f = some (.error m)) (part : s.lifecycle.participates = true) (fourth : s.commit.vetoes = 3)
    (closed : s.service.restartOpen = false) : DetachesWith c s .vetoBudget := by
  have spent : ¬ s.slotSpoiled.commit.vetoes < 3 := by simp [State.slotSpoiled, CommitUnit.listened, fourth]
  refine detachesWith_of_detach (u := s.slotSpoiled) ?_ ⟨rfl, rfl, rfl, rfl, rfl, rfl⟩ closed rfl rfl id
  rw [exec_eq, peerCommitted_malformed part bad, State.ownVeto, if_neg spent]

/-! ### What makes a frame malformed (R40, R45, R48) -/

section
variable {cells : List Cell}

theorem received_faulty (recorded : s.recordedCells? = some cells) (faulty : frameOk f = false) :
    ∃ m, s.received? f = some (.error m) := by
  obtain ⟨m, fault⟩ : ∃ m, frameFault? f = some m := by
    rw [frameOk, Option.isNone_eq_false_iff] at faulty
    exact Option.isSome_iff_exists.mp faulty
  exact ⟨m, by simp [State.received?, recorded, fault]⟩

/-- A frame with its fields in range is judged by the cells recorded of it, and the rest as it was sent. -/
theorem received_judged (recorded : s.recordedCells? = some cells) (ok : frameOk f = true) (some_cells : cells ≠ []) :
    s.received? f = some (judgeCells (cells ++ ((encodeFrame f).drop cells.length).map .bit)) := by
  rw [frameOk, Option.isNone_iff_eq_none] at ok
  simp [State.received?, recorded, ok, some_cells]

/-- R45: a broken cell makes the frame malformed, whatever its fields. -/
theorem received_broken (recorded : s.recordedCells? = some cells) (broken : .broken ∈ cells) :
    ∃ m, s.received? f = some (.error m) := by
  cases ok : frameOk f with
  | false => exact received_faulty recorded ok
  | true =>
    rw [received_judged recorded ok (List.ne_nil_of_mem broken)]
    cases judged : judgeCells (cells ++ ((encodeFrame f).drop cells.length).map .bit) with
    | error m => exact ⟨m, rfl⟩
    | ok g => exact absurd judged (judgeCells_broken (List.mem_append_left _ broken) g)

/-- R48: unbroken cells are the frame that they decode to. -/
theorem received_bits {bits : List Bool} (recorded : s.recordedCells? = some (bits.map .bit)) (ok : frameOk f = true)
    (some_bits : bits ≠ []) (g : Frame) : s.received? f = some (.ok g) ↔
      decodeFrame (bits ++ (encodeFrame f).drop bits.length) = .ok g := by
  rw [received_judged recorded ok (by simpa using some_bits), List.length_map, ← List.map_append, Option.some_inj,
    judgeCells_ok, cellBits_bits]
  simp

end

/-- Settles O17: the veto by its count, then the frames without a record, then what makes a frame malformed. -/
theorem malformedFrameIsVetoed : Obligations.MalformedFrameIsVetoed := by
  intro s c f carries awake notOwn
  refine ⟨fun m bad => ⟨fun part few => ?_, fun part fourth closed => ?_, fun life => ?_⟩,
    fun onMedium none unseen => ?_, fun seen => ?_⟩
  · rw [exec_peerCommitted carries awake (onMedium_of_participates part) notOwn, peerCommitted_malformed part bad,
      ownVeto_counts few]
    exact answer_settles _
  · exact malformed_detaches (exec_peerCommitted carries awake (onMedium_of_participates part) notOwn) bad part fourth
      closed
  · rw [exec_peerCommitted carries awake (by rw [life]; rfl) notOwn,
      peerCommitted_malformed_listen (by rw [life]; rfl) bad, noteActivity_listen (s := s.slotSpoiled) life]
    exact answer_settles _
  · have unrecorded : s.received? f = .none := by
      rcases unseen with stopped | ⟨life, busy⟩
      · exact received_stopped none stopped f
      · exact received_midway (by rw [life]; rfl) none (decide_eq_false (Nat.not_le.mpr busy)) f
    rw [exec_peerCommitted carries awake onMedium notOwn, peerCommitted_unrecorded unrecorded, noteActivity_eq]
    exact answer_settles _
  · have recorded : s.recordedCells? = some (s.commit.reception.getD []) := by
      rw [recordedCells_spec, if_pos (seen.imp_right fun h => ⟨h.1, h.2.symm⟩)]
    refine ⟨received_faulty recorded, fun ok none => received_whole (none ▸ recorded) ok, received_broken recorded,
      fun bits g ok eq some_bits => received_bits (eq ▸ recorded) ok some_bits g⟩

end

end Sys2Proof.Machine

/-! SUPPORT. A frame with this station's number from another sender, and the well-formed frames that a station with a
complete image ignores (R41, R43, R54, R57, R111 to R115). -/

namespace Sys2Proof.Machine

section
variable {s u : State} {c : Instr} {f : Frame}

/-! ### The entry into LINK-FAULT (R43, R115) -/

/-- R156, R157: the report that leads to LINK-FAULT is the first hand-off of its command that the fault unit takes. -/
theorem toLinkFault_record (fault : u.fault = s.fault) (time : u.timeBase = s.timeBase)
    (life : u.lifecycle = s.lifecycle) (cause : FaultKind) :
    KeepsRecord s (u.toLinkFault cause).finish ∧ (u.toLinkFault cause).finish.fault.line = true ∧
    (s.fault.record = none →
      (u.toLinkFault cause).finish.fault.record = some ⟨cause, none, s.timeBase, s.lifecycle⟩) := by
  have toEnd : KeepsRecord (u.report cause none) (u.toLinkFault cause).finish :=
    keepsRecord_carried.trans (keepsRecord_carried.someTasks _) fun r h => finish_keepsRecord _ r h
  obtain ⟨r, written⟩ := report_record u cause none
  refine ⟨fun r h => toEnd r (takeReport_keepsRecord u cause none u.lifecycle r (fault ▸ h)),
    line_of_record (toEnd r written), fun absent => toEnd _ ?_⟩
  rw [report_fault]
  simp [FaultUnit.takeReport, fault, absent, time, life]

/-- R115: every block leaves the link, and no rejoin holdoff runs. -/
theorem toLinkFault_leaves (same : SameStation s u) (cause : FaultKind) :
    LeftLink s (u.toLinkFault cause).finish .linkFault none :=
  leaveLink_finish (same.trans ((report_untouched u cause none).trans (someTasks_untouched _)).sameStation) none
    (.inr rfl)

/-- R57: what the blocks find where a well-formed frame has closed its slot recessive. -/
def State.slotTaken (s : State) : State := s.frameEnds.endPacing.noteActivity.vetoesCleared

theorem slotTaken_eq (s : State) : s.slotTaken = { s with
    commit := { s.commit.listened with vetoes := if s.lifecycle.participates then 0 else s.commit.vetoes }
    join := { s.join with
      activity := s.join.activity || (decide (s.lifecycle = .listen) && s.join.listenTimer.isSome) } } := by
  rw [State.slotTaken, noteActivity_eq]
  cases part : s.lifecycle.participates
  · exact if_neg (by simpa [State.frameEnds, State.endPacing] using part)
  · exact if_pos part

/-- R43: the path of a frame with this station's number that this station did not send. -/
theorem peerCommitted_duplicate (ok : s.received? f = some (.ok f)) (same : frameSender f = s.number) :
    s.peerCommitted f = s.slotTaken.toLinkFault .duplicateStation := by
  have number : s.slotTaken.number = s.number := by rw [slotTaken_eq]; rfl
  rw [State.peerCommitted, ok]
  exact if_pos (same.trans number.symm)

/-! ### Ignored frames (R41, R111, R112) -/

/-- The members of a map of stations. -/
theorem entryOf?_isNone {α : Type} {x : Station} {l : List (Station × α)} :
    (entryOf? x l).isNone = true ↔ ∀ v, (x, v) ∉ l := by
  simp only [entryOf?, Option.isNone_map, Option.isNone_iff_eq_none, List.find?_eq_none, decide_eq_true_eq]
  exact ⟨fun h v mem => h _ mem rfl, fun h e mem eq => h e.2 (eq ▸ mem)⟩

/-- R41: only a JOIN is accepted from every sender. -/
theorem accepts_join (join : isJoin f = true) (r : Roster) : accepts r f = true := by
  unfold accepts
  cases f <;> simp [isJoin] at join
  cases r.stateOf (frameSender (.join ..)) <;> rfl

/-- R112: a commit that leaves the roster as it was takes no peer out of hearing. -/
theorem checkIsolation_sameRoster {before : Roster} (same : s.roster = before) : s.checkIsolation before = s :=
  checkIsolation_stays (by simp [State.isolatedSince, same])

/-- R112: a station that has left the link is not out of step. -/
theorem checkIsolation_outside (before : Roster) (outside : s.lifecycle.participates = false) :
    s.checkIsolation before = s := if_neg (by simp [outside])

/-- R113: a detach leaves the station outside the link. -/
theorem detach_outside (closed : s.service.restartOpen = false) (cause : FaultKind) :
    (s.detach (some cause)).lifecycle.participates = false := by
  rw [detach_cause closed]
  rfl

/-- R54: the path of a well-formed frame of another number at a station whose image is complete. -/
theorem commitFrame_complete (awake : s.loader.held = false) (part : s.lifecycle.participates = true)
    (notOwn : s.commit.flownAs? f = none) (ok : s.received? f = some (.ok f)) (other : frameSender f ≠ s.number)
    (complete : s.image.standing = .complete) :
    s.commitFrame f = (s.slotClosed.deliverLive f false).checkIsolation s.roster := by
  have live : s.slotClosed.deliver f false = s.slotClosed.deliverLive f false := by
    have complete' : s.slotClosed.image.standing = .complete := complete
    rcases participates_cases part with life | life
    · have life' : s.slotClosed.lifecycle = .joining := life
      simp [State.deliver, life', complete']
    · have life' : s.slotClosed.lifecycle = .active := life
      simp [State.deliver, life']
  rw [← live]
  exact commitFrame_participates awake part notOwn ok other

/-- R41: an ignored frame of a JOINING sender reaches no block. -/
theorem deliverLive_joining (ignored : accepts s.roster f = false)
    (sender : s.roster.stateOf (frameSender f) = .joining) : s.deliverLive f false = s := by
  simp [State.deliverLive, ignored, sender]

/-- R41, R111: an ignored frame of an ABSENT or LOST sender reaches the stray-frame watch alone. -/
theorem deliverLive_stray (ignored : accepts s.roster f = false)
    (sender : s.roster.stateOf (frameSender f) = .absent ∨ s.roster.stateOf (frameSender f) = .lost) :
    s.deliverLive f false = s.noteStray (frameSender f) := by
  have notJoin : isJoin f = false := Bool.eq_false_iff.mpr fun join => by simp [accepts_join join] at ignored
  rcases sender with sender | sender <;> simp [State.deliverLive, ignored, notJoin, sender]

/-- This station with `x` in its stray set (R111). -/
def State.strayNoted (s : State) (x : Station) : State :=
  { s with join := { s.join with stray := putEntry x 0 s.join.stray } }

/-- R111, R112: the stray set that gains no member, or is not the larger one. -/
theorem noteStray_stays {x : Station} (stays : (∃ v, (x, v) ∈ s.join.stray) ∨
    (putEntry x 0 s.join.stray).length ≤ heardPeers s.number s.roster) : s.noteStray x = s.strayNoted x := by
  refine if_neg fun leaves => ?_
  obtain ⟨gained, larger⟩ := Bool.and_eq_true_iff.mp leaves
  rcases stays with ⟨v, mem⟩ | few
  · exact entryOf?_isNone.mp gained v mem
  · exact Nat.not_lt.mpr few (of_decide_eq_true larger)

/-- R112: the stray set gains a member and is the larger one. -/
theorem noteStray_leaves {x : Station} (gained : ∀ v, (x, v) ∉ s.join.stray)
    (larger : heardPeers s.number s.roster < (putEntry x 0 s.join.stray).length) :
    s.noteStray x = (s.strayNoted x).detach (some .namedLost) :=
  if_pos (Bool.and_eq_true_iff.mpr ⟨entryOf?_isNone.mpr gained, decide_eq_true larger⟩)

/-- Settles O18: the duplicate number, then an ignored frame by its sender's standing and by what it makes of the stray
set. -/
theorem duplicateAndIgnoredFramesAreWatched : Obligations.DuplicateAndIgnoredFramesAreWatched := by
  intro s c f carries awake onMedium notOwn ok
  refine ⟨fun same => ?_, fun other part complete ignored => ?_⟩
  · have like : SameStation s s.slotTaken := by rw [slotTaken_eq]; exact ⟨rfl, rfl, rfl, rfl, rfl, rfl⟩
    obtain ⟨keeps, line, writes⟩ := toLinkFault_record (s := s) (u := s.slotTaken) (by rw [slotTaken_eq])
      (by rw [slotTaken_eq]) (by rw [slotTaken_eq]) .duplicateStation
    rw [exec_peerCommitted carries awake onMedium notOwn, peerCommitted_duplicate ok same]
    exact ⟨_, rfl, toLinkFault_leaves like _, line, writes, keeps⟩
  · have commit := commitFrame_complete awake part notOwn ok other complete
    rw [exec_frame carries]
    refine ⟨fun sender => ?_, fun sender stays => ?_, fun sender gained larger closed => ?_⟩
    · rw [commit, deliverLive_joining (s := s.slotClosed) ignored sender,
        checkIsolation_sameRoster (s := s.slotClosed) (before := s.roster) rfl]
      exact answer_settles _
    · rw [commit, deliverLive_stray (s := s.slotClosed) ignored sender, noteStray_stays (s := s.slotClosed) stays,
        checkIsolation_sameRoster (s := s.slotClosed.strayNoted (frameSender f)) (before := s.roster) rfl]
      exact answer_settles _
    · refine detachesWith_of_detach (u := s.slotClosed.strayNoted (frameSender f)) ?_ ⟨rfl, rfl, rfl, rfl, rfl, rfl⟩
        closed rfl rfl id
      rw [exec_frame carries, commit, deliverLive_stray (s := s.slotClosed) ignored sender,
        noteStray_leaves (s := s.slotClosed) gained larger,
        checkIsolation_outside _ (detach_outside (s := s.slotClosed.strayNoted (frameSender f)) closed .namedLost)]

end

end Sys2Proof.Machine

/-! SUPPORT. The backlog of a joiner whose image is not complete, and its replay (R42, R79, R89, R92, R99, R104, R105,
R108). -/

namespace Sys2Proof.Machine

/-! ### The replay (R42, R92, R99) -/

section
variable {own : Station} {founding : Bool} {r : Replay} {f : Frame}

theorem replayBacklog_concat (m : Image) (roster : Roster) (l : List Frame) :
    replayBacklog own founding m roster (l ++ [f]) =
      replayFrame own founding (replayBacklog own founding m roster l) f := by
  simp [replayBacklog]

theorem replayFrame_spoiled (spoiled : r.spoiled = true) : replayFrame own founding r f = r :=
  if_pos spoiled

theorem replayFrame_accepted (sound : r.spoiled = false) (accepted : accepts r.roster f = true) :
    replayFrame own founding r f =
      ⟨frameEffect r.roster f r.points, rosterEffect own false f r.roster, r.reports ++ [f], false⟩ := by
  simp [replayFrame, sound, accepted]

/-- R42, R99: an ignored frame is passed over, or spoils a founding base. -/
theorem replayFrame_ignored (sound : r.spoiled = false) (ignored : accepts r.roster f = false) :
    replayFrame own founding r f = { r with spoiled := founding && !isJoin f &&
      (decide (r.roster.stateOf (frameSender f) = .absent) || decide (r.roster.stateOf (frameSender f) = .lost)) } := by
  have spoils_eq : (founding && spoils r.roster f) = (founding && !isJoin f &&
      (decide (r.roster.stateOf (frameSender f) = .absent) || decide (r.roster.stateOf (frameSender f) = .lost))) := by
    simp [spoils, ignored, Bool.and_assoc]
  rw [← spoils_eq, replayFrame, if_neg (by simp [sound]), if_neg (by simp [ignored])]
  split
  · rename_i spoils
    rw [spoils]
  · rename_i passed
    rw [Bool.eq_false_iff.mpr passed, ← sound]

end

/-! ### The roster without timers (R79, R92) -/

section
variable {own : Station} {r : Roster} {t : Station}

/-- An entry after the change of one entry, for a station of the roster. -/
theorem Roster.entry_update_of_stands (stands : 1 ≤ t ∧ t ≤ r.length) (x : Station) (f : RosterEntry → RosterEntry) :
    Roster.entry (r.update x f) t = if t = x then f (r.entry t) else r.entry t := by
  rw [Roster.entry_update]
  by_cases same : t = x
  · subst same
    simp [stands]
  · simp [same]

/-- `a` has the state and the period of `b`, and of the timers of `e` those that have not been stopped. -/
def SameButStopped (a b e : RosterEntry) : Prop :=
  a.state = b.state ∧ a.period = b.period ∧ (a.silence = none ∨ a.silence = e.silence) ∧
    (a.deadline = none ∨ a.deadline = e.deadline)

/-- R79, R92: a replayed frame changes the entries by the table, and starts no timer. -/
theorem rosterEffect_untimed (stands : 1 ≤ t ∧ t ≤ r.length) (f : Frame) :
    SameButStopped ((rosterEffect own false f r).entry t) (entryAfter own f t (r.entry t)) (r.entry t) := by
  cases f with
  | join s k p =>
    simp only [rosterEffect, entryAfter, Roster.entry_update_of_stands stands]
    split <;> simp [SameButStopped, RosterEntry.join]
  | entry s p items =>
    simp only [rosterEffect, entryAfter, Roster.entry_update_of_stands stands]
    split <;> simp [SameButStopped, RosterEntry.enter]
  | loss s x =>
    simp only [rosterEffect, entryAfter, Roster.entry_update_of_stands stands]
    by_cases named : t = x
    · cases state : (r.entry t).state <;> simp [SameButStopped, RosterEntry.lose, named ▸ state, named]
    · simp [SameButStopped, named]
  | release s x =>
    simp only [rosterEffect, entryAfter, Roster.entry_update_of_stands stands]
    by_cases named : t = x
    · by_cases lost : (r.entry t).state = .lost <;> simp [SameButStopped, RosterEntry.release, named ▸ lost, named]
    · simp [SameButStopped, named]
  | busy | image | update | rollcall | svcReq | svcRsp => simp [SameButStopped, rosterEffect, entryAfter]

/-- R92: the timers of every other ACTIVE and JOINING entry start from zero. -/
theorem startTimers_entry (stands : 1 ≤ t ∧ t ≤ r.length) :
    let e := r.entry t
    (startTimers own r).entry t =
      if t = own then e
      else if e.state = .active then { e with silence := some 0 }
      else if e.state = .joining then { e with deadline := some 0 } else e := by
  obtain ⟨low, high⟩ := stands
  have inside : t - 1 < r.length := Nat.lt_of_lt_of_le (Nat.sub_lt low Nat.one_pos) high
  have entry : ∀ l : Roster, ∀ h : t - 1 < l.length, l.entry t = l[t - 1] := fun l h => by
    simp [Roster.entry, Nat.ne_of_gt low, List.getD_eq_getElem?_getD, h]
  dsimp only
  rw [entry r inside, entry (startTimers own r) (by simpa [startTimers] using inside)]
  simp only [startTimers, List.getElem_mapIdx, Nat.sub_add_cancel low]
  cases r[t - 1].state <;> simp

end

/-! ### The joiner's backlog (R104, R105) -/

section
variable {s : State} {f : Frame}

/-- R54: the path of a well-formed frame of another number to a joiner whose image is not complete. -/
theorem commitFrame_joiner (awake : s.loader.held = false) (life : s.lifecycle = .joining)
    (notOwn : s.commit.flownAs? f = none) (ok : s.received? f = some (.ok f)) (other : frameSender f ≠ s.number)
    (incomplete : s.image.standing ≠ .complete) :
    s.commitFrame f = (s.slotClosed.deliverJoiner f false).checkIsolation s.roster := by
  have deliver : s.slotClosed.deliver f false = s.slotClosed.deliverJoiner f false := by
    have life' : s.slotClosed.lifecycle = .joining := life
    have incomplete' : s.slotClosed.image.standing ≠ .complete := incomplete
    simp [State.deliver, life', incomplete']
  rw [← deliver]
  exact commitFrame_participates awake (by simp [life, Lifecycle.participates]) notOwn ok other

/-- R105: a frame of the backlog's kinds reaches the backlog. -/
theorem deliverJoiner_kept (notLost : namesLost s.number f = false) (kept : isBacklogKind f = true)
    (listens : s.join.awaiting = false) : s.deliverJoiner f false = s.keepInBacklog f := by
  cases f <;> simp [isBacklogKind] at kept <;>
    simp_all [State.deliverJoiner, isBacklogKind]

/-- R104: while a joiner awaits a re-JOIN, only a LOSS naming it reaches it. -/
theorem deliverJoiner_awaiting (notLost : namesLost s.number f = false) (awaiting : s.join.awaiting = true) :
    s.deliverJoiner f false = s := by
  cases f <;> simp_all [State.deliverJoiner, State.takePart, takesPart, State.takeBusy]

/-- R104, R105: what is neither for the backlog nor for this joiner reaches nothing. -/
theorem deliverJoiner_passed (notLost : namesLost s.number f = false) (kind : isBacklogKind f = false)
    (image : ∀ x y k body, f = .image x y k body → y ≠ s.number) (busy : ∀ x y, f = .busy x y → y ≠ s.number) :
    s.deliverJoiner f false = s := by
  cases f <;> simp_all [State.deliverJoiner, isBacklogKind]

/-- This station with `f` at the end of its backlog (R105). -/
def State.backlogged (s : State) (f : Frame) : State :=
  { s with join := { s.join with backlog := s.join.backlog ++ [f] } }

theorem keepInBacklog_takes (room : s.join.backlog.length < 64) : s.keepInBacklog f = s.backlogged f :=
  if_neg (Nat.not_le.mpr room)

theorem keepInBacklog_overflows (full : 64 ≤ s.join.backlog.length) : s.keepInBacklog f = s.detach none :=
  if_pos full

/-- R105, R113: the frame that overflows the backlog ends the join. -/
theorem overflow_detaches {c : Instr} (exec_eq : exec c s = ((s.slotClosed.detach none).checkIsolation s.roster).answer)
    (closed : s.service.restartOpen = false) : ∃ t, exec c s = .next t ∧ Detached s t := by
  have left := detach_none (s := s.slotClosed) closed
  have like : SameStation s s.slotClosed.someTasks :=
    SameStation.trans (b := s.slotClosed) ⟨rfl, rfl, rfl, rfl, rfl, rfl⟩ (someTasks_untouched s.slotClosed).sameStation
  rw [left, checkIsolation_outside _ rfl] at exec_eq
  exact ⟨_, exec_eq, leaveLink_finish like (some 0) (.inl rfl)⟩

end

/-- Settles O39: the replay frame by frame, the entries and timers it leaves, then a joiner's frame by its kind and by
the room in the backlog. -/
theorem backlogIsKeptAndReplayed : Obligations.BacklogIsKeptAndReplayed := by
  refine ⟨fun own founding m r l f => ?_, fun own r t len station => ?_,
    fun s c f carries awake life standing notOwn ok other notLost => ?_⟩
  · dsimp only
    rw [replayBacklog_concat]
    exact ⟨rfl, replayFrame_spoiled, replayFrame_accepted, replayFrame_ignored⟩
  · have stands : 1 ≤ t ∧ t ≤ r.length := len ▸ isStation_iff.mp station
    exact ⟨fun f _ => rosterEffect_untimed stands f, startTimers_entry stands⟩
  · have incomplete : s.image.standing ≠ .complete := by rcases standing with h | h <;> simp [h]
    have commit := commitFrame_joiner awake life notOwn ok other incomplete
    have settled : s.slotClosed.deliverJoiner f false = s.slotClosed →
        SettlesTo (exec c s) { s with commit := s.commit.afterPeer } := fun passed => by
      rw [exec_frame carries, commit, passed, checkIsolation_incomplete (s := s.slotClosed) _ incomplete]
      exact answer_settles _
    intro kept addressed
    have kept_iff : kept ↔ isBacklogKind f = true := by cases f <;> simp [kept, isBacklogKind]
    refine ⟨fun kind listens room => ?_, fun kind listens full closed => ?_, fun passed => settled ?_⟩
    · rw [exec_frame carries, commit,
        deliverJoiner_kept (s := s.slotClosed) notLost (kept_iff.mp kind) listens,
        keepInBacklog_takes (s := s.slotClosed) room,
        checkIsolation_incomplete (s := s.slotClosed.backlogged f) _ incomplete]
      exact answer_settles _
    · refine overflow_detaches ?_ closed
      rw [exec_frame carries, commit, deliverJoiner_kept (s := s.slotClosed) notLost (kept_iff.mp kind) listens,
        keepInBacklog_overflows (s := s.slotClosed) full]
    · rcases passed with ⟨other, foreign⟩ | awaiting
      · refine deliverJoiner_passed (s := s.slotClosed) notLost (Bool.eq_false_iff.mpr fun h => other (kept_iff.mpr h))
          ?_ ?_
        · rintro x y k body rfl
          exact foreign
        · rintro x y rfl
          exact foreign
      · exact deliverJoiner_awaiting (s := s.slotClosed) notLost awaiting

end Sys2Proof.Machine

/-! SUPPORT. Service requests: the session that a request opens, the BUSY answers that other requests are owed, RESTART
in the place of an open session, and the requests that are disregarded (R36, R165 to R168, R170, R171, R174). -/

namespace Sys2Proof.Machine

/-! ### The list of BUSY answers (R167) -/

section
variable {x : Station} {tag : Byte}

/-- R167: a requester without an entry joins the list at its end. -/
theorem oweBusy_new {l : List (Station × Byte)} (new : ∀ e ∈ l, e.1 ≠ x) : oweBusy l x tag = l ++ [(x, tag)] := by
  refine if_neg fun present => ?_
  obtain ⟨e, mem, same⟩ := List.any_eq_true.mp present
  exact new e mem (of_decide_eq_true same)

theorem map_retag_of_ne {l : List (Station × Byte)} (other : ∀ e ∈ l, e.1 ≠ x) :
    (l.map fun e => if e.1 = x then (x, tag) else e) = l :=
  (List.map_congr_left fun e mem => if_neg (other e mem)).trans (List.map_id l)

/-- R167: a requester keeps its place and takes the new tag. -/
theorem oweBusy_again {before after : List (Station × Byte)} (old : Byte) (others : ∀ e ∈ before ++ after, e.1 ≠ x) :
    oweBusy (before ++ (x, old) :: after) x tag = before ++ (x, tag) :: after := by
  have present : (before ++ (x, old) :: after).any (fun e => e.1 = x) = true := by simp
  rw [oweBusy, if_pos present, List.map_append, List.map_cons, if_pos rfl,
    map_retag_of_ne fun e mem => others e (List.mem_append_left _ mem),
    map_retag_of_ne fun e mem => others e (List.mem_append_right _ mem)]

end

/-! ### The path of a request (R54, R165) -/

section
variable {s : State} {c : Instr} {x y : Station} {tag : Byte} {q : Request}

/-- R165: the commit of a peer's request is what the service unit makes of it. -/
theorem exec_request (carries : c.frame? = some (.svcReq x y tag q)) (h : LivePeerFrame s (.svcReq x y tag q)) :
    exec c s =
      ((s.afterHeard (.svcReq x y tag q)).serve s.roster (.svcReq x y tag q)).answer := by
  have quiet : s.mismatchReport (.svcReq x y tag q) = [] := rfl
  have post_nil : ∀ u : State, u.post [] = u := fun u => by simp [State.post]
  rw [exec_frame carries, commitFrame_plain h rfl, quiet, post_nil]

/-- R165: a request addressed to this ACTIVE station is taken. -/
theorem exec_request_taken (carries : c.frame? = some (.svcReq x s.number tag q)) (h : TakesRequest s x tag q) :
    exec c s =
      ((s.afterHeard (.svcReq x s.number tag q)).takeServiceRequest x tag q).answer := by
  obtain ⟨life, live⟩ := h
  have mine : s.number = (s.afterHeard (.svcReq x s.number tag q)).number := rfl
  have active : (s.afterHeard (.svcReq x s.number tag q)).lifecycle = .active := life
  rw [exec_request carries live]
  exact congrArg State.answer (if_pos (by simp [← mine, active]))

/-- R165: a request for another station, or at a JOINING one, is disregarded. -/
theorem serve_disregarded {u : State} (before : Roster) (elsewhere : y ≠ u.number ∨ u.lifecycle = .joining) :
    u.serve before (.svcReq x y tag q) = u :=
  if_neg (by rcases elsewhere with h | h <;> simp [h])

/-! ### Opening a session (R166, R170, R171, R174) -/

/-- The requests at which the unit does no more than open the session: the reading requests and RESTART. -/
def opensPlainly : Request → Bool
  | .readPoint _ | .readRoster | .readLocal | .readFault | .readCapture _ _ | .restart => true
  | .clearFault _ | .armCapture | .releaseStation _ => false

theorem openSession_plain (u : State) (plain : opensPlainly q = true) :
    u.openSession x tag q = State.handResponse
      { u with service := { u.service with session := some ⟨x, tag, q, requestParts q, 1, false, .done⟩ } } := by
  cases q <;> simp [opensPlainly] at plain <;> rfl

/-- R166: while no session is open, a reading request or RESTART opens its own. -/
theorem exec_request_opens (carries : c.frame? = some (.svcReq x s.number tag q)) (plain : opensPlainly q = true)
    (none : s.service.session = none) (h : TakesRequest s x tag q) :
    SettlesTo (exec c s)
      (opened s (.svcReq x s.number tag q) ⟨x, tag, q, requestParts q, 1, false, .done⟩) := by
  have none' : (s.afterHeard (.svcReq x s.number tag q)).service.session = .none := none
  rw [exec_request_taken carries h, State.takeServiceRequest, none']
  dsimp only
  rw [openSession_plain _ plain]
  exact answer_settles _

/-! ### An open session (R167, R168, R174) -/

/-- No hand-off reaches the service unit or its slots. -/
theorem finish_serviceView (u : State) : u.finish.serviceView = u.serviceView := by
  have kept := finish_untouched u
  simp only [State.serviceView, kept.service, kept.responseSlot, kept.releaseSlot]

section
variable {u : State} {ss : Session}

/-- R167: while a session is open, a request other than RESTART is owed a BUSY answer. -/
theorem takeServiceRequest_busy (session : u.service.session = some ss) (notRestart : q ≠ .restart) :
    (u.takeServiceRequest x tag q).serviceView =
      ({ u.service with busyList := oweBusy u.service.busyList x tag },
        u.asm.responseSlot.or (nextResponse { u.service with busyList := oweBusy u.service.busyList x tag }),
        u.asm.releaseSlot) := by
  rw [State.takeServiceRequest, session]
  dsimp only
  rw [if_neg notRestart, handResponse_serviceView]

/-- R168: a BUSY answer that is owed goes before every session part. -/
theorem nextResponse_or (v : ServiceUnit) (ss : Session) (listens : ss.releasing = false) :
    (nextResponse { v with session := none }).or (nextResponse { v with session := some ss }) =
      nextResponse { v with session := some ss } := by
  cases v.busyList <;> simp [nextResponse, listens]

/-- R174: RESTART replaces the open session, whose part and RELEASE leave their slots. -/
theorem takeServiceRequest_restart (session : u.service.session = some ss) :
    (u.takeServiceRequest x tag .restart).serviceView =
      ({ u.service with session := some ⟨x, tag, .restart, 1, 1, false, .done⟩ },
        (if u.asm.responseSlot = some .sessionPart then none else u.asm.responseSlot).or
          (nextResponse { u.service with session := some ⟨x, tag, .restart, 1, 1, false, .done⟩ }), none) := by
  have abandoned := abandonSession_serviceView u
  simp only [State.serviceView, Prod.mk.injEq] at abandoned
  obtain ⟨service, response, release⟩ := abandoned
  rw [State.takeServiceRequest, session]
  dsimp only
  rw [if_pos rfl, openSession_plain _ rfl, handResponse_serviceView, service, response, release, Option.or_assoc,
    nextResponse_or _ _ rfl]
  rfl

end

section
variable {ss : Session}

/-- R167: what the commit of a request leaves where it is owed a BUSY answer. -/
theorem exec_request_busy (carries : c.frame? = some (.svcReq x s.number tag q)) (h : TakesRequest s x tag q)
    (session : s.service.session = some ss) (notRestart : q ≠ .restart) :
    ∃ t, exec c s = .next t ∧ t.service.session = some ss ∧ t.service.busyList = oweBusy s.service.busyList x tag ∧
      t.asm.responseSlot = (if s.asm.responseSlot = none then nextResponse t.service else s.asm.responseSlot) ∧
      t.image = s.image ∧ t.lifecycle = .active := by
  have taken := exec_request_taken carries h
  set u := s.afterHeard (.svcReq x s.number tag q)
  have view := takeServiceRequest_busy (u := u) (x := x) (tag := tag) session notRestart
  have keeps := takeServiceRequest_keepsLink u x tag q
  have kept := finish_untouched (u.takeServiceRequest x tag q)
  rw [← finish_serviceView] at view
  simp only [State.serviceView, Prod.mk.injEq] at view
  obtain ⟨service, response, -⟩ := view
  refine ⟨_, taken, by rw [service]; exact session, by rw [service]; rfl, ?_, kept.image.trans keeps.image,
    (kept.lifecycle.trans keeps.lifecycle).trans h.1⟩
  rw [response, service]
  change s.asm.responseSlot.or _ = _
  cases s.asm.responseSlot <;> simp

/-- R174: what the commit of a RESTART leaves where a session is open. -/
theorem exec_request_restart (carries : c.frame? = some (.svcReq x s.number tag .restart))
    (h : TakesRequest s x tag .restart) (session : s.service.session = some ss) :
    ∃ t, exec c s = .next t ∧ t.service.session = some ⟨x, tag, .restart, 1, 1, false, .done⟩ ∧
      t.service.busyList = s.service.busyList ∧ t.asm.releaseSlot = none ∧ t.lifecycle = .active ∧
      (∀ z, s.asm.responseSlot = some (.busyAnswer z) → t.asm.responseSlot = s.asm.responseSlot) ∧
      ((∀ z, s.asm.responseSlot ≠ some (.busyAnswer z)) → t.asm.responseSlot = nextResponse t.service) := by
  have taken := exec_request_taken carries h
  set u := s.afterHeard (.svcReq x s.number tag .restart)
  have view := takeServiceRequest_restart (u := u) (x := x) (tag := tag) session
  have keeps := takeServiceRequest_keepsLink u x tag .restart
  have kept := finish_untouched (u.takeServiceRequest x tag .restart)
  rw [← finish_serviceView] at view
  simp only [State.serviceView, Prod.mk.injEq] at view
  obtain ⟨service, response, release⟩ := view
  have slot : u.asm.responseSlot = s.asm.responseSlot := rfl
  refine ⟨_, taken, by rw [service], by rw [service]; rfl, release, (kept.lifecycle.trans keeps.lifecycle).trans h.1,
    fun z busy => ?_, fun notBusy => ?_⟩
  · rw [response, slot, busy]
    rfl
  · rw [response, service, slot]
    rcases full : s.asm.responseSlot with - | z | -
    · rfl
    · exact absurd full (notBusy z)
    · rfl

end

/-- Settles O42: the list of BUSY answers, the requests that open a session, then a request during an open one, and one
that is disregarded. -/
theorem requestsOpenTheSessionOrAreAnsweredBusy : Obligations.RequestsOpenTheSessionOrAreAnsweredBusy := by
  refine ⟨fun before after x old tag others => ⟨oweBusy_new others, oweBusy_again old others⟩,
    fun s x tag p first count none => ?_, fun s c x y tag q ss carries => ⟨?_, ?_, fun live elsewhere => ?_⟩⟩
  · exact ⟨exec_request_opens rfl rfl none, exec_request_opens rfl rfl none, exec_request_opens rfl rfl none,
      exec_request_opens rfl rfl none, exec_request_opens rfl rfl none, exec_request_opens rfl rfl none⟩
  · rintro rfl h session notRestart
    exact exec_request_busy carries h session notRestart
  · rintro rfl h session rfl
    exact exec_request_restart carries h session
  · have elsewhere' : y ≠ (s.afterHeard (.svcReq x y tag q)).number ∨
        (s.afterHeard (.svcReq x y tag q)).lifecycle = .joining := elsewhere
    rw [exec_request carries live, serve_disregarded _ elsewhere']
    exact answer_settles _

end

end Sys2Proof.Machine

/-! SUPPORT. The check field as bits: the fields of numbers, and the check register (R26, R38). -/

namespace Sys2Proof.Machine

/-! ### Numbers as bits (R26, R39) -/

@[simp] theorem fieldBits_length (w n : Nat) : (fieldBits w n).length = w := by
  induction w with
  | zero => rfl
  | succ w ih => simp [fieldBits, ih]

/-- R26: the bits of a field, most significant first. -/
theorem fieldBits_eq_map (w n : Nat) : fieldBits w n = (List.range w).map fun i => n.testBit (w - 1 - i) := by
  induction w with
  | zero => rfl
  | succ w ih =>
    rw [List.range_succ_eq_map, List.map_cons, List.map_map, fieldBits, ih]
    refine congrArg _ (List.map_congr_left fun i _ => ?_)
    simp [Nat.sub_sub, Nat.add_comm]

theorem bitsValue_foldl (bits : List Bool) : ∀ acc : Nat,
    bits.foldl (fun acc b => 2 * acc + b.toNat) acc = acc * 2 ^ bits.length + bitsValue bits := by
  induction bits with
  | nil => simp [bitsValue]
  | cons b bits ih =>
    intro acc
    rw [bitsValue, List.foldl_cons, List.foldl_cons, ih, ih (2 * 0 + b.toNat), List.length_cons, pow_succ]
    ring

theorem bitsValue_cons (b : Bool) (bits : List Bool) :
    bitsValue (b :: bits) = b.toNat * 2 ^ bits.length + bitsValue bits :=
  (bitsValue_foldl bits (2 * 0 + b.toNat)).trans (by simp)

theorem bitsValue_lt (bits : List Bool) : bitsValue bits < 2 ^ bits.length := by
  induction bits with
  | nil => simp [bitsValue]
  | cons b bits ih =>
    rw [bitsValue_cons, List.length_cons, pow_succ]
    cases b <;> simp <;> omega

/-- Bits of one length that spell one number are the same. -/
theorem bitsValue_injective : ∀ {bits bits' : List Bool}, bits.length = bits'.length →
    bitsValue bits = bitsValue bits' → bits = bits'
  | [], [], _, _ => rfl
  | b :: bits, b' :: bits', len, value => by
    have len' : bits.length = bits'.length := by simpa using len
    have small := bitsValue_lt bits
    have small' := bitsValue_lt bits'
    rw [bitsValue_cons, bitsValue_cons, ← len'] at value
    rw [← len'] at small'
    have head : b = b' := by
      cases b <;> cases b' <;> simp at value ⊢ <;> omega
    subst head
    rw [bitsValue_injective len' (by omega)]

/-- R26: a number that fits its field is read back. -/
theorem bitsValue_fieldBits {w n : Nat} (fits : n < 2 ^ w) : bitsValue (fieldBits w n) = n := by
  have value : ∀ w, bitsValue (fieldBits w n) = n % 2 ^ w := by
    intro w
    induction w with
    | zero => simp [fieldBits, bitsValue, Nat.mod_one]
    | succ w ih =>
      rw [fieldBits, bitsValue_cons, ih, fieldBits_length, Nat.mod_pow_succ, Nat.toNat_testBit, Nat.mul_comm,
        Nat.add_comm]
  rw [value, Nat.mod_eq_of_lt fits]

/-! ### The check register (R38) -/

theorem checkRegister_append (bits more : List Bool) :
    checkRegister (bits ++ more) = more.foldl checkStep (checkRegister bits) := by
  simp [checkRegister]

/-- The feedback term of R38. -/
theorem feedback_getLsbD : ∀ i < 16, (0x1021#16).getLsbD i = (decide (i = 12) || decide (i = 5) || decide (i = 0)) := by
  decide

/-- R38: one step of the register, stage by stage. -/
theorem checkStep_getLsbD (r : Word16) (b : Bool) {i : Nat} (h : i < 16) :
    (checkStep r b).getLsbD i = stageAfter r b i := by
  have shifted : (r <<< 1).getLsbD i = (decide (1 ≤ i) && r.getLsbD (i - 1)) := by
    rw [BitVec.getLsbD_shiftLeft, decide_eq_true h]
    cases i <;> simp
  unfold checkStep stageAfter
  dsimp only
  rw [show r.msb = r.getLsbD 15 from BitVec.msb_eq_getLsbD_last r, Bool.bne_eq_xor, ← shifted]
  cases b ^^ r.getLsbD 15
  · simp
  · simp only [if_true, BitVec.getLsbD_xor, feedback_getLsbD i h, Bool.true_and]

/-- R38: a covered bit equal to stage 15 is shifted in without feedback. -/
theorem stageAfter_shifts {r : Word16} {b : Bool} (same : r.getLsbD 15 = b) (i : Nat) :
    stageAfter r b i = (decide (1 ≤ i) && r.getLsbD (i - 1)) := by
  simp only [stageAfter, same, Bool.xor_self, Bool.false_and, Bool.xor_false]

/-- R38: stage 0 shows the feedback. -/
theorem stageAfter_zero {r : Word16} {b : Bool} (zero : stageAfter r b 0 = false) : r.getLsbD 15 = b := by
  have feedback : (b ^^ r.getLsbD 15) = false := by simpa [stageAfter] using zero
  exact (by simpa using feedback : b = r.getLsbD 15).symm

/-- R38: the register holds zero after at most sixteen more bits exactly where its stages, from 15 on, are those bits,
and the stages after them are zero. -/
theorem checkRegister_zero_iff : ∀ {bits : List Bool} {r : Word16}, bits.length ≤ 16 →
    (bits.foldl checkStep r = 0 ↔ ∀ i < 16, r.getLsbD (15 - i) = bits.getD i false)
  | [], r, _ => by
    constructor
    · rintro rfl i -
      simp
    · refine fun zero => BitVec.eq_of_getLsbD_eq fun i h => ?_
      have stage := zero (15 - i) (by omega)
      rw [show 15 - (15 - i) = i by omega] at stage
      simpa using stage
  | b :: bits, r, len => by
    have short : bits.length ≤ 15 := Nat.le_of_succ_le_succ len
    have last : bits.getD 15 false = false := List.getD_eq_default _ _ short
    rw [List.foldl_cons, checkRegister_zero_iff (Nat.le_succ_of_le short)]
    constructor
    · intro zero i h
      have first := zero 15 (by omega)
      rw [checkStep_getLsbD r b (by omega), last] at first
      have same := stageAfter_zero first
      cases i with
      | zero => exact same
      | succ i =>
        have stage := zero i (by omega)
        rwa [checkStep_getLsbD r b (by omega), stageAfter_shifts same, decide_eq_true (by omega),
          Bool.true_and] at stage
    · intro stages i h
      have same : r.getLsbD 15 = b := stages 0 (by omega)
      rw [checkStep_getLsbD r b (by omega), stageAfter_shifts same]
      by_cases final : i = 15
      · subst final
        exact last.symm
      · rw [decide_eq_true (by omega), Bool.true_and]
        exact stages (i + 1) (by omega)

/-- R38: the check field is stage 15 first. -/
theorem checkBits_eq_map (bits : List Bool) :
    checkBits bits = (List.range 16).map fun i => (checkRegister bits).getLsbD (15 - i) :=
  fieldBits_eq_map 16 _

theorem checkBits_length (bits : List Bool) : (checkBits bits).length = 16 := fieldBits_length ..

/-- R38: sixteen bits are the check field exactly where the register continued through them holds zero. -/
theorem eq_checkBits_iff {bits check : List Bool} (len : check.length = 16) :
    check = checkBits bits ↔ checkRegister (bits ++ check) = 0 := by
  rw [checkRegister_append, checkRegister_zero_iff len.le]
  constructor
  · rintro rfl i h
    simp [checkBits_eq_map, List.getD_eq_getElem?_getD, h]
  · refine fun stages => List.ext_getElem (len.trans (checkBits_length bits).symm) fun i h _ => ?_
    have stage := stages i (len ▸ h)
    rw [List.getD_eq_getElem _ _ h] at stage
    simp [checkBits_eq_map, ← stage]

end Sys2Proof.Machine

/-! SUPPORT. Every decoder of fields takes bits from the front and leaves the rest as it stands (R26, R28, R31, R33 to
R36, R39). -/

namespace Sys2Proof.Machine

/-! ### What a decoder leaves (R39) -/

/-- What a decoder of fields leaves is the end of the bits it was given. -/
def LeavesEnd {α : Type} (take : List Bool → Except Malformed (α × List Bool)) : Prop :=
  ∀ bits x rest, take bits = .ok (x, rest) → rest <:+ bits

namespace LeavesEnd

variable {α β : Type} {take other : List Bool → Except Malformed (α × List Bool)}

theorem ok (x : α) : LeavesEnd fun bits => .ok (x, bits) := by
  intro bits y rest h
  cases h
  exact List.suffix_rfl

theorem error (m : Malformed) : LeavesEnd (α := α) fun _ => .error m := by
  intro bits y rest h
  cases h

theorem bind {more : α × List Bool → Except Malformed (β × List Bool)} (first : LeavesEnd take)
    (second : ∀ x, LeavesEnd fun rest => more (x, rest)) : LeavesEnd fun bits => take bits >>= more := by
  intro bits y rest h
  cases taken : take bits with
  | error m => simp [taken, Bind.bind, Except.bind] at h
  | ok p =>
    simp only [taken, Bind.bind, Except.bind] at h
    exact (second p.1 p.2 y rest h).trans (first bits p.1 p.2 taken)

theorem ite {c : Prop} [Decidable c] (yes : LeavesEnd take) (no : LeavesEnd other) :
    LeavesEnd fun bits => if c then take bits else other bits := by
  split
  · exact yes
  · exact no

end LeavesEnd

theorem takeField_leavesEnd (w : Nat) : LeavesEnd (takeField w) := by
  intro bits x rest h
  unfold takeField at h
  split at h
  · cases h
    exact List.drop_suffix w bits
  · cases h

theorem takeMany_leavesEnd {α : Type} {one : List Bool → Except Malformed (α × List Bool)} (each : LeavesEnd one) :
    ∀ n, LeavesEnd (takeMany one n)
  | 0 => .ok []
  | n + 1 => each.bind fun x => (takeMany_leavesEnd each n).bind fun xs => .ok (x :: xs)

theorem takeItem_leavesEnd : LeavesEnd takeItem :=
  (takeField_leavesEnd 2).bind fun _ => (takeField_leavesEnd 8).bind fun _ =>
    .ite ((takeField_leavesEnd 1).bind fun _ => .ok _)
      (.ite (.ok _) (.ite (.ok _) ((takeField_leavesEnd 8).bind fun _ => .ok _)))

theorem takeRosterEntry_leavesEnd : LeavesEnd takeRosterEntry :=
  (takeField_leavesEnd 2).bind fun _ => (takeField_leavesEnd 8).bind fun _ => .ok _

theorem takeMembership_leavesEnd : LeavesEnd takeMembership := by
  intro bits x rest h
  unfold takeMembership at h
  split at h
  · cases h
    exact List.drop_suffix 30 bits
  · cases h

theorem takeMapEntry_leavesEnd : LeavesEnd takeMapEntry :=
  (takeField_leavesEnd 5).bind fun _ => (takeField_leavesEnd 2).bind fun _ =>
    .ite (.ok _) (.ite (.ok _) (.ite (.ok _) (.error _)))

theorem takeMap_leavesEnd : LeavesEnd takeMap :=
  (takeField_leavesEnd 5).bind fun n => takeMany_leavesEnd takeMapEntry_leavesEnd n

theorem takeHeld_leavesEnd : LeavesEnd takeHeld :=
  (takeField_leavesEnd 1).bind fun _ => (takeField_leavesEnd 5).bind fun _ =>
    (takeField_leavesEnd 8).bind fun _ => .ok _

theorem takeCount_leavesEnd : LeavesEnd takeCount :=
  (takeField_leavesEnd 16).bind fun _ => (takeField_leavesEnd 5).bind fun _ => .ok _

theorem takeByte_leavesEnd : LeavesEnd takeByte := (takeField_leavesEnd 8).bind fun _ => .ok _

/-- R33: the body of a part, by the shape of its number. -/
theorem takePart_leavesEnd (k : Nat) : LeavesEnd (takePart k) := by
  unfold takePart
  cases partShape? k with
  | none => exact .error _
  | some shape =>
    cases shape with
    | roster => exact (takeMany_leavesEnd takeRosterEntry_leavesEnd 30).bind fun _ => .ok _
    | any => exact (takeMany_leavesEnd takeMembership_leavesEnd 8).bind fun _ => .ok _
    | all => exact (takeMany_leavesEnd takeMap_leavesEnd 8).bind fun _ => .ok _
    | held => exact (takeMany_leavesEnd takeHeld_leavesEnd 8).bind fun _ => .ok _
    | count => exact (takeMany_leavesEnd takeCount_leavesEnd 8).bind fun _ => .ok _

/-- R36: a request, by its kind code. -/
theorem takeRequest_leavesEnd : LeavesEnd takeRequest :=
  (takeField_leavesEnd 4).bind fun
    | 0 => (takeField_leavesEnd 8).bind fun _ => .ok _
    | 1 | 2 | 3 | 6 | 8 => .ok _
    | 4 => (takeField_leavesEnd 1).bind fun _ => .ok _
    | 5 => (takeField_leavesEnd 16).bind fun _ => (takeField_leavesEnd 6).bind fun _ => .ok _
    | 7 => (takeField_leavesEnd 5).bind fun _ => .ok _
    | _ + 9 => .error _

/-- R28: a body, by its rank. -/
theorem takeBody_leavesEnd (rank : Nat) (x : Station) : LeavesEnd (takeBody rank x) := by
  have target := takeField_leavesEnd 5
  have period := takeField_leavesEnd 8
  have items := takeMany_leavesEnd takeItem_leavesEnd
  have number := takeField_leavesEnd 6
  unfold takeBody
  split
  · exact target.bind fun _ => .ok _
  · exact target.bind fun _ => .ok _
  · exact target.bind fun _ => period.bind fun _ => .ok _
  · exact target.bind fun _ => .ok _
  · exact target.bind fun _ => number.bind fun k => (takePart_leavesEnd k).bind fun _ => .ok _
  · exact period.bind fun _ => (takeField_leavesEnd 4).bind fun n => (items n).bind fun _ => .ok _
  · exact (takeField_leavesEnd 4).bind fun n => (items n).bind fun _ => .ok _
  · exact period.bind fun _ => .ok _
  · exact target.bind fun _ => takeByte_leavesEnd.bind fun _ => takeRequest_leavesEnd.bind fun _ => .ok _
  · exact target.bind fun _ => takeByte_leavesEnd.bind fun _ => (takeField_leavesEnd 2).bind fun _ =>
      number.bind fun _ => number.bind fun _ => number.bind fun n =>
        (takeMany_leavesEnd takeByte_leavesEnd n).bind fun _ => .ok _
  · exact .error _

theorem takeFrame_leavesEnd : LeavesEnd takeFrame :=
  (takeField_leavesEnd 4).bind fun rank => (takeField_leavesEnd 5).bind fun x => takeBody_leavesEnd rank x

end Sys2Proof.Machine

/-! SUPPORT. Every frame whose fields are in range is read back from its bits (R26 to R40). -/

namespace Sys2Proof.Machine

/-! ### Fields in range (R27, R29 to R31) -/

theorem pointClass?_lt {p : Nat} {k : PointClass} (h : pointClass? p = some k) : p < 256 := by
  by_contra out
  simp [pointClass?, show ¬ p < 128 by omega, show ¬ p < 176 by omega, show ¬ p < 224 by omega, out] at h

theorem firstReason_eq_none {checks : List (Option Malformed)} :
    firstReason checks = none ↔ ∀ check ∈ checks, check = none := by
  simp [firstReason]

theorem checkTarget_none {x y : Station} (h : checkTarget x y = none) : isStation y = true := by
  unfold checkTarget at h
  split at h
  · cases h
  · simp_all

theorem isStation_fits {y : Station} (h : isStation y = true) : y < 32 :=
  Nat.lt_of_le_of_lt (isStation_iff.mp h).2 (by decide)

theorem checkRespondent_fits {x y : Station} (h : checkRespondent x y = none) : y < 32 := by
  unfold checkRespondent at h
  split at h
  · simp_all
  · exact isStation_fits (checkTarget_none h)

theorem isPeriod_fits {p : Nat} (h : isPeriod p = true) : p < 256 := by
  simp only [isPeriod, Bool.and_eq_true, decide_eq_true_eq] at h
  omega

theorem checkPeriod_fits {p : Nat} (h : checkPeriod p = none) : p < 256 := by
  unfold checkPeriod at h
  split at h
  · exact isPeriod_fits (by assumption)
  · cases h

/-! ### Fields read back (R26, R39) -/

/-- A decoder takes the bits of `x` from the front and leaves what follows them. -/
def ReadsBack {α : Type} (take : List Bool → Except Malformed (α × List Bool)) (bits : List Bool) (x : α) : Prop :=
  ∀ rest, take (bits ++ rest) = .ok (x, rest)

@[simp] theorem ok_bind {α β : Type} (x : α) (f : α → Except Malformed β) : (Except.ok x >>= f) = f x := rfl

/-- R26: a number that fits its field is taken from it. -/
theorem takeField_fieldBits {w n : Nat} (fits : n < 2 ^ w) (rest : List Bool) :
    takeField w (fieldBits w n ++ rest) = .ok (n, rest) := by
  have enough : w ≤ (fieldBits w n ++ rest).length := by simp
  rw [takeField, if_pos enough, List.take_left' (fieldBits_length w n), List.drop_left' (fieldBits_length w n),
    bitsValue_fieldBits fits]

@[simp] theorem takeField_bit (b : Bool) (rest : List Bool) : takeField 1 (b :: rest) = .ok (b.toNat, rest) := by
  cases b <;> rfl

theorem takeMany_readsBack {α : Type} {one : List Bool → Except Malformed (α × List Bool)} {bits : α → List Bool} :
    ∀ {xs : List α}, (∀ x ∈ xs, ReadsBack one (bits x) x) → ReadsBack (takeMany one xs.length) (xs.flatMap bits) xs
  | [], _ => fun _ => rfl
  | x :: xs, each => fun rest => by
    have first := each x (List.mem_cons_self ..) (xs.flatMap bits ++ rest)
    have others := takeMany_readsBack (fun y mem => each y (List.mem_cons_of_mem x mem)) rest
    simp [takeMany, first, others]

/-- As many records as the layout fixes are read back. -/
theorem takeMany_counted {α : Type} {one : List Bool → Except Malformed (α × List Bool)} {bits : α → List Bool}
    {xs : List α} {n : Nat} (len : xs.length = n) (each : ∀ x ∈ xs, ReadsBack one (bits x) x) :
    ReadsBack (takeMany one n) (xs.flatMap bits) xs :=
  len ▸ takeMany_readsBack each

theorem takeByte_readsBack (b : Byte) : ReadsBack takeByte (fieldBits 8 b.toNat) b := fun rest => by
  simp [takeByte, takeField_fieldBits b.isLt]

/-- R31: the fields of an item in range fit their widths. -/
theorem checkItem_fits {item : Item} (ok : checkItem item = none) :
    itemPoint item < 256 ∧ ∀ p n, item = .pulse p n → n < 256 := by
  cases item with
  | level p v =>
    simp only [checkItem] at ok
    split at ok
    · exact ⟨pointClass?_lt (by assumption), by simp⟩
    · exact ⟨pointClass?_lt (by assumption), by simp⟩
    · cases ok
  | set p => exact ⟨pointClass?_lt (p := p) (k := .held) (by simpa [checkItem] using ok), by simp⟩
  | clear p => exact ⟨pointClass?_lt (p := p) (k := .held) (by simpa [checkItem] using ok), by simp⟩
  | pulse p n =>
    simp only [checkItem] at ok
    split_ifs at ok with other out
    refine ⟨pointClass?_lt (not_not.mp other), ?_⟩
    rintro _ _ ⟨⟩
    simp only [Bool.or_eq_true, decide_eq_true_eq] at out
    omega

/-- R31: an item is read back. -/
theorem takeItem_readsBack {item : Item} (ok : checkItem item = none) : ReadsBack takeItem (itemBits item) item := by
  intro rest
  obtain ⟨point, pulses⟩ := checkItem_fits ok
  cases item with
  | level p v =>
    have fits : p < 256 := point
    cases v <;> simp [takeItem, itemBits, takeField_fieldBits, fits]
  | set p =>
    have fits : p < 256 := point
    simp [takeItem, itemBits, takeField_fieldBits, fits]
  | clear p =>
    have fits : p < 256 := point
    simp [takeItem, itemBits, takeField_fieldBits, fits]
  | pulse p n =>
    have fits : p < 256 := point
    have fits' : n < 256 := pulses p n rfl
    simp [takeItem, itemBits, takeField_fieldBits, fits, fits']

/-! ### Parts read back (R33 to R35) -/

theorem takeRosterEntry_readsBack {e : RosterState × Nat} (ok : rosterEntryOk e = true) :
    ReadsBack takeRosterEntry (rosterEntryBits e) e := by
  intro rest
  obtain ⟨state, p⟩ := e
  have fits : p < 256 := by
    cases state with
    | absent =>
      have zero : p = 0 := of_decide_eq_true ok
      omega
    | joining | active | lost => exact isPeriod_fits ok
  cases state <;>
    simp [takeRosterEntry, rosterEntryBits, rosterCode, rosterOfCode, takeField_fieldBits, fits]

/-- R4, R35: strictly ascending station numbers. -/
theorem ascendingFrom_iff {l : List Station} : ∀ {low : Nat}, ascendingFrom low l = true ↔
    l.Pairwise (· < ·) ∧ ∀ y ∈ l, low < y ∧ isStation y = true := by
  induction l with
  | nil => simp [ascendingFrom]
  | cons x l ih =>
    intro low
    simp only [ascendingFrom, Bool.and_eq_true, decide_eq_true_eq, ih, List.pairwise_cons, List.forall_mem_cons]
    constructor
    · rintro ⟨⟨above, station⟩, ascends, later⟩
      exact ⟨⟨fun y mem => (later y mem).1, ascends⟩, ⟨above, station⟩,
        fun y mem => ⟨above.trans (later y mem).1, (later y mem).2⟩⟩
    · rintro ⟨⟨after, ascends⟩, first, later⟩
      exact ⟨first, ascends, fun y mem => ⟨after y mem, (later y mem).2⟩⟩

/-- Ascending station numbers are the stations among them, in order. -/
theorem filter_allStations {l : List Station} (ok : ascendingFrom 0 l = true) :
    (allStations.filter fun y => l.contains y) = l := by
  obtain ⟨ascends, stations⟩ := ascendingFrom_iff.mp ok
  refine (allStations_pairwise.filter _).sortedLT.eq_of_mem_iff ascends.sortedLT fun y => ?_
  rw [List.mem_filter, mem_allStations, List.contains_iff_mem]
  exact ⟨fun h => h.2, fun mem => ⟨(stations y mem).2, mem⟩⟩

theorem ascendingFrom_length {l : List Station} (ok : ascendingFrom 0 l = true) : l.length ≤ 30 := by
  rw [← filter_allStations ok]
  exact (List.length_filter_le ..).trans (by decide)

/-- R35: a set of stations is read back from its membership field. -/
theorem takeMembership_readsBack {set : OnSet} (ok : ascendingFrom 0 set = true) :
    ReadsBack takeMembership (membershipBits set) set := by
  intro rest
  have len : (membershipBits set).length = 30 := by simp [membershipBits]
  have members : (List.range 30).filterMap (fun i =>
      if (membershipBits set ++ rest).getD i false then some (i + 1) else none) = set := by
    refine Eq.trans ?_ (filter_allStations ok)
    rw [allStations, List.filter_map, ← List.filterMap_eq_map, List.filterMap_filter]
    refine List.filterMap_congr fun i mem => ?_
    have inside : i < 30 := List.mem_range.mp mem
    have bit : (membershipBits set ++ rest).getD i false = set.contains (i + 1) := by
      rw [List.getD_append _ _ _ _ (len ▸ inside)]
      simp [membershipBits, List.getD_eq_getElem?_getD, inside]
    rw [bit]
    rfl
  rw [takeMembership, if_pos (by simp [len]), members, List.drop_left' len]

theorem takeMapEntry_readsBack {e : Station × Entry} (ok : isStation e.1 = true) :
    ReadsBack takeMapEntry (mapEntryBits e) e := by
  intro rest
  obtain ⟨y, v⟩ := e
  have fits : y < 32 := isStation_fits ok
  cases v <;> simp [takeMapEntry, mapEntryBits, entryCode, takeField_fieldBits, fits]

theorem takeMap_readsBack {m : ContributorMap} (ok : ascendingFrom 0 (m.map Prod.fst) = true) :
    ReadsBack takeMap (mapBits m) m := by
  intro rest
  have few : m.length < 32 := by
    have len := ascendingFrom_length ok
    rw [List.length_map] at len
    omega
  have entries := takeMany_readsBack (fun e mem =>
    takeMapEntry_readsBack (((ascendingFrom_iff.mp ok).2 e.1 (List.mem_map_of_mem mem)).2)) rest
  simp [takeMap, mapBits, takeField_fieldBits, few, entries]

/-- R29: a station field in which 0 means absent. -/
theorem optionalStation_getD {x : Option Station} (stands : ∀ y, x = some y → y ≠ 0) :
    optionalStation (x.getD 0) = x := by
  cases x with
  | none => rfl
  | some y => exact if_neg (stands y rfl)

theorem getD_fits {x : Option Station} (stations : ∀ y, x = some y → isStation y = true) : x.getD 0 < 32 := by
  cases x with
  | none => decide
  | some y => exact isStation_fits (stations y rfl)

theorem takeHeld_readsBack {r : HeldRecord} (ok : heldRecordOk r = true) : ReadsBack takeHeld (heldBits r) r := by
  intro rest
  obtain ⟨value, changer, changes⟩ := r
  have stations : ∀ y, changer = some y → isStation y = true := by rintro y rfl; exact ok
  have fits := getD_fits stations
  have back := optionalStation_getD fun y h => Nat.ne_of_gt (isStation_iff.mp (stations y h)).1
  cases value <;> simp [takeHeld, heldBits, takeField_fieldBits, fits, back, changes.isLt]

theorem takeCount_readsBack {r : CountRecord} (ok : countRecordOk r = true) : ReadsBack takeCount (countBits r) r := by
  intro rest
  obtain ⟨count, pulser⟩ := r
  have stations : ∀ y, pulser = some y → isStation y = true := by rintro y rfl; exact ok
  have fits := getD_fits stations
  have back := optionalStation_getD fun y h => Nat.ne_of_gt (isStation_iff.mp (stations y h)).1
  simp [takeCount, countBits, takeField_fieldBits, fits, back, count.isLt]

/-- R33: a part body is read back, by the shape of its number. -/
theorem takePart_readsBack {k : Nat} {body : PartBody} (ok : checkPart k body = none) :
    ReadsBack (takePart k) (partBits body) body := by
  intro rest
  unfold checkPart at ok
  split at ok
  · rename_i es shape
    split_ifs at ok with len all
    have read := takeMany_counted (not_not.mp len) fun e mem =>
      takeRosterEntry_readsBack (List.all_eq_true.mp all e mem)
    simp [takePart, shape, partBits, read rest]
  · rename_i sets shape
    split_ifs at ok with len all
    have read := takeMany_counted (not_not.mp len) fun e mem => takeMembership_readsBack (List.all_eq_true.mp all e mem)
    simp [takePart, shape, partBits, read rest]
  · rename_i maps shape
    split_ifs at ok with len all
    have read := takeMany_counted (not_not.mp len) fun e mem => takeMap_readsBack (List.all_eq_true.mp all e mem)
    simp [takePart, shape, partBits, read rest]
  · rename_i rs shape
    split_ifs at ok with len all
    have read := takeMany_counted (not_not.mp len) fun e mem => takeHeld_readsBack (List.all_eq_true.mp all e mem)
    simp [takePart, shape, partBits, read rest]
  · rename_i rs shape
    split_ifs at ok with len all
    have read := takeMany_counted (not_not.mp len) fun e mem => takeCount_readsBack (List.all_eq_true.mp all e mem)
    simp [takePart, shape, partBits, read rest]
  · cases ok

theorem partShape?_fits {k : Nat} {body : PartBody} (ok : checkPart k body = none) : k < 64 := by
  by_contra out
  have none : partShape? k = none := by
    simp [partShape?, show ¬ k = 0 by omega, show ¬ k ≤ 16 by omega, show ¬ k ≤ 22 by omega, show ¬ k ≤ 28 by omega,
      show ¬ k ≤ 32 by omega]
  simp [checkPart, none] at ok

/-! ### Requests and responses read back (R36, R37) -/

theorem takeRequest_readsBack {q : Request} (ok : checkRequest q = none) :
    ReadsBack takeRequest (fieldBits 4 (requestCode q) ++ argumentBits q) q := by
  intro rest
  cases q with
  | readPoint p => simp [takeRequest, requestCode, argumentBits, takeField_fieldBits, p.isLt]
  | readRoster | readLocal | readFault | armCapture | restart =>
    simp [takeRequest, requestCode, argumentBits, takeField_fieldBits]
  | clearFault counts => cases counts <;> simp [takeRequest, requestCode, argumentBits, takeField_fieldBits]
  | readCapture first count =>
    have fits : count < 64 := by
      simp only [checkRequest] at ok
      split_ifs at ok with h
      simp only [Bool.and_eq_true, decide_eq_true_eq] at h
      omega
    simp [takeRequest, requestCode, argumentBits, takeField_fieldBits, fits, first.isLt]
  | releaseStation y =>
    have fits : y < 32 := by
      simp only [checkRequest] at ok
      split_ifs at ok with h
      exact isStation_fits h
    simp [takeRequest, requestCode, argumentBits, takeField_fieldBits, fits]

theorem checkResponse_fits {k n : Nat} {payload : List Byte} (ok : checkResponse k n payload = none) :
    k < 64 ∧ n < 64 ∧ payload.length < 64 := by
  simp only [checkResponse] at ok
  split_ifs at ok with h
  simp only [Bool.or_eq_true, decide_eq_true_eq, not_or] at h
  omega

/-! ### Frames read back (R28, R38) -/

theorem statusOfCode_statusCode (status : Status) : statusOfCode (statusCode status) = status := by
  cases status <;> rfl

theorem statusCode_fits (status : Status) : statusCode status < 4 := by
  cases status <;> decide

/-- R31: the items of a frame are read back. -/
theorem takeItems_readsBack {items : List Item} (ok : items.findSome? checkItem = none) :
    ReadsBack (takeMany takeItem items.length) (items.flatMap itemBits) items :=
  takeMany_readsBack fun item mem => takeItem_readsBack (List.findSome?_eq_none_iff.mp ok item mem)

/-- R28: a frame's body is read back by its rank. -/
theorem takeBody_readsBack {f : Frame} (ok : frameFault? f = none) :
    ReadsBack (takeBody (frameRank f) (frameSender f)) (bodyBits f) f := by
  intro rest
  simp only [frameFault?, firstReason_eq_none, List.forall_mem_cons] at ok
  replace ok := ok.2
  cases f with
  | loss x y | release x y | busy x y =>
    simp only [List.forall_mem_cons] at ok
    have target := isStation_fits (checkTarget_none ok.1)
    simp [takeBody, frameRank, frameSender, bodyBits, takeField_fieldBits, target]
  | join x k p =>
    simp only [List.forall_mem_cons] at ok
    obtain ⟨respondent, period, -⟩ := ok
    simp [takeBody, frameRank, frameSender, bodyBits, takeField_fieldBits, checkRespondent_fits respondent,
      checkPeriod_fits period]
  | image x y k body =>
    simp only [List.forall_mem_cons] at ok
    obtain ⟨target, part, -⟩ := ok
    have fits := isStation_fits (checkTarget_none target)
    simp [takeBody, frameRank, frameSender, bodyBits, takeField_fieldBits, fits, partShape?_fits part,
      takePart_readsBack part rest]
  | entry x p items =>
    simp only [List.forall_mem_cons] at ok
    obtain ⟨period, count, -, each, -⟩ := ok
    have few : items.length < 16 := by
      split_ifs at count with h
      exact Nat.lt_of_le_of_lt h (by decide)
    simp [takeBody, frameRank, frameSender, bodyBits, takeField_fieldBits, checkPeriod_fits period, few,
      takeItems_readsBack each rest]
  | update x items =>
    simp only [List.forall_mem_cons] at ok
    obtain ⟨count, each, -⟩ := ok
    have few : items.length < 16 := by
      split_ifs at count with h
      exact Nat.lt_of_le_of_lt (of_decide_eq_true (Bool.and_eq_true_iff.mp h).2) (by decide)
    simp [takeBody, frameRank, frameSender, bodyBits, takeField_fieldBits, few, takeItems_readsBack each rest]
  | rollcall x p =>
    simp only [List.forall_mem_cons] at ok
    simp [takeBody, frameRank, frameSender, bodyBits, takeField_fieldBits, checkPeriod_fits ok.1]
  | svcReq x y tag q =>
    simp only [List.forall_mem_cons] at ok
    obtain ⟨target, request, -⟩ := ok
    have fits := isStation_fits (checkTarget_none target)
    have tagRead := takeByte_readsBack tag
    have read := takeRequest_readsBack request rest
    rw [List.append_assoc] at read
    simp [takeBody, frameRank, frameSender, bodyBits, takeField_fieldBits, fits, tagRead _, read]
  | svcRsp x y tag status k n payload =>
    simp only [List.forall_mem_cons] at ok
    obtain ⟨target, response, -⟩ := ok
    have fits := isStation_fits (checkTarget_none target)
    obtain ⟨part, parts, len⟩ := checkResponse_fits response
    have tagRead := takeByte_readsBack tag
    have read := takeMany_readsBack (fun b (_ : b ∈ payload) => takeByte_readsBack b) rest
    simp [takeBody, frameRank, frameSender, bodyBits, takeField_fieldBits, fits, tagRead _, statusCode_fits, part,
      parts, len, read, statusOfCode_statusCode]

theorem frameRank_fits (f : Frame) : frameRank f < 16 := by
  cases f <;> simp [frameRank]

theorem frameSender_station {f : Frame} (ok : frameFault? f = none) : isStation (frameSender f) = true := by
  simp only [frameFault?, firstReason_eq_none, List.forall_mem_cons] at ok
  have sender := ok.1
  split_ifs at sender with h
  exact h

/-- R27, R28: key and body are read back. -/
theorem takeFrame_readsBack {f : Frame} (ok : frameFault? f = none) : ReadsBack takeFrame (coveredBits f) f := by
  intro rest
  have sender := isStation_fits (frameSender_station ok)
  simp [takeFrame, coveredBits, takeField_fieldBits, frameRank_fits, sender, takeBody_readsBack ok rest]

/-- R26 to R40: a frame whose fields are in range is read back from the bits that its sender sends. -/
theorem decodeFrame_encodeFrame {f : Frame} (ok : frameOk f = true) : decodeFrame (encodeFrame f) = .ok f := by
  rw [frameOk, Option.isNone_iff_eq_none] at ok
  have len := checkBits_length (coveredBits f)
  have covered : (encodeFrame f).take ((encodeFrame f).length - 16) = coveredBits f := by
    simp [encodeFrame, len]
  have value : bitsValue (checkBits (coveredBits f)) = (checkRegister (coveredBits f)).toNat :=
    bitsValue_fieldBits (BitVec.isLt _)
  rw [decodeFrame, covered, encodeFrame, takeFrame_readsBack ok]
  simp [ok, len, value]

/-- R38, R40: the verdict of well-formed asks that the register continued through the check field holds zero. -/
theorem checkRegister_of_decodeFrame {bits : List Bool} {f : Frame} (decoded : decodeFrame bits = .ok f) :
    checkRegister bits = 0 := by
  unfold decodeFrame at decoded
  cases taken : takeFrame bits with
  | error m => simp [taken, Bind.bind, Except.bind] at decoded
  | ok p =>
    obtain ⟨g, check⟩ := p
    simp only [taken, ok_bind] at decoded
    split at decoded
    · cases decoded
    · split_ifs at decoded with len value
      obtain ⟨covered, rfl⟩ := takeFrame_leavesEnd bits g check taken
      have len' : check.length = 16 := not_not.mp len
      rw [List.length_append, len', Nat.add_sub_cancel, List.take_left] at value
      refine (eq_checkBits_iff len').mp (bitsValue_injective (len'.trans (checkBits_length _).symm) ?_)
      rw [not_not.mp value]
      exact (bitsValue_fieldBits (BitVec.isLt _)).symm

/-- Settles O55: the frames read back, the register's start and its step, and the check field in both directions. -/
theorem decodingInvertsEncoding : Obligations.DecodingInvertsEncoding := by
  refine ⟨fun f ok => ⟨decodeFrame_encodeFrame ok, ?_, rfl⟩, rfl, fun bits bit i h => ?_, checkBits_eq_map,
    fun bits check len => eq_checkBits_iff len, fun bits f => checkRegister_of_decodeFrame⟩
  · exact (eq_checkBits_iff (checkBits_length _)).mp rfl
  · rw [checkRegister_append]
    exact checkStep_getLsbD _ bit h

end Sys2Proof.Machine

/-! SUPPORT. What a command can do to the fields of which the invariants of every step speak: one relation between the
values before and after, with a case for each kind of event (R46 to R48, R56 to R58, R65, R72, R94 to R96, R106, R113,
R115, R157, R161, R176 to R183). -/

namespace Sys2Proof.Machine

/-! ### Station sets in ascending order (R65, R72, R96, R106) -/

theorem insertStation_ascending {l : List Station} (x : Station) (h : l.Pairwise (· < ·)) :
    (insertStation x l).Pairwise (· < ·) := by
  induction l with
  | nil => exact List.pairwise_singleton _ _
  | cons t l ih =>
    obtain ⟨first, rest⟩ := List.pairwise_cons.mp h
    unfold insertStation
    split_ifs with less same
    · exact List.pairwise_cons.mpr ⟨List.forall_mem_cons.mpr ⟨less, fun z mem => less.trans (first z mem)⟩, h⟩
    · exact h
    · refine List.pairwise_cons.mpr ⟨fun z mem => ?_, ih rest⟩
      rcases mem_insertStation.mp mem with rfl | mem
      · exact lt_of_le_of_ne (not_lt.mp less) (Ne.symm same)
      · exact first z mem

theorem eraseStation_ascending {l : List Station} (x : Station) (h : l.Pairwise (· < ·)) :
    (eraseStation x l).Pairwise (· < ·) := h.filter _

theorem foldl_insertStation_ascending (named : List Station) {l : List Station} (h : l.Pairwise (· < ·)) :
    (named.foldl (fun l x => insertStation x l) l).Pairwise (· < ·) := by
  induction named generalizing l with
  | nil => exact h
  | cons x named ih => exact ih (insertStation_ascending x h)

/-- R65: the rows of the contribution table stand in ascending point number. -/
theorem contributionTable_ascending (setup : StationSetup) :
    ((contributionTable setup).map (·.point)).Pairwise (· < ·) := by
  have points : (contributionTable setup).map (·.point) = ownPoints setup := by
    simp [contributionTable, Function.comp_def]
  rw [points]
  exact foldl_insertStation_ascending _ List.Pairwise.nil

/-! ### The points of the contribution table (R66, R76) -/

theorem rowsFailed_points (rows : List ContributionRow) : (rowsFailed rows).map (·.point) = rows.map (·.point) := by
  simp [rowsFailed, Function.comp_def]

theorem rowsCommitted_points (rows : List ContributionRow) :
    (rowsCommitted rows).map (·.point) = rows.map (·.point) := by
  simpa [Function.comp_def, ContributionRow.onLink] using congrArg (List.map Prod.fst) (rowsCommitted_onLink rows)

theorem rowsEntered_points (rows : List ContributionRow) (items : List Item) :
    (rowsEntered rows items).map (·.point) = rows.map (·.point) := by
  simpa [Function.comp_def, ContributionRow.onLink] using congrArg (List.map Prod.fst) (rowsEntered_onLink rows items)

theorem startUpdate_points (a : Assembler) (faultPoint : Option Point) :
    (a.startUpdate faultPoint).rows.map (·.point) = a.rows.map (·.point) := by
  simp only [Assembler.startUpdate, List.map_map]
  refine List.map_congr_left fun r _ => ?_
  simp only [Function.comp]
  split <;> rfl

/-! ### The records (R157, R161) -/

/-- R157: ten counts, none above 255. -/
def KindCountsFit (counts : List Nat) : Prop := counts.length = 10 ∧ ∀ n ∈ counts, n ≤ 255

theorem bumpCount_fits {counts : List Nat} (h : KindCountsFit counts) (kind : FaultKind) :
    KindCountsFit (bumpCount counts kind) := by
  refine ⟨(List.length_modify ..).trans h.1, fun n mem => ?_⟩
  obtain ⟨i, at_i⟩ := List.mem_iff_getElem?.mp mem
  simp only [bumpCount, List.getElem?_modify, Option.map_eq_map, Option.map_eq_some_iff] at at_i
  obtain ⟨m, at_i, rfl⟩ := at_i
  have le := h.2 m (List.mem_of_getElem? at_i)
  split_ifs <;> simp <;> omega

theorem zeroCounts_fit : KindCountsFit (List.replicate 10 0) := ⟨rfl, by decide⟩

theorem addRecord_ring {c : CaptureUnit} (h : c.ring.length ≤ 48) (stamp : Word16) (ordinal : Byte)
    (body : RecordBody) : (c.addRecord stamp ordinal body).ring.length ≤ 48 := by
  have kept : (if 48 ≤ c.ring.length then c.ring.drop (c.ring.length + 1 - 48) else c.ring).length ≤ 47 := by
    split_ifs
    · rw [List.length_drop]; omega
    · omega
  simpa [CaptureUnit.addRecord, Config.ringCapacity] using Nat.lt_succ_of_le kept

/-- R161: a full ring loses its oldest record for every one that is added. -/
theorem addRecords_ring (stamp : Word16) (ordinal : Byte) (bodies : List RecordBody) : ∀ {c : CaptureUnit},
    c.ring.length ≤ 48 → (c.addRecords stamp ordinal bodies).ring.length ≤ 48 := by
  induction bodies with
  | nil => exact id
  | cons body rest ih =>
    intro c h
    have added := addRecord_ring h stamp ordinal body
    unfold CaptureUnit.addRecords
    split
    · exact ih added
    · dsimp only
      split
      · exact added
      · exact ih added
    all_goals exact h

theorem addGroup_ring {c : CaptureUnit} (h : c.ring.length ≤ 48) (stamp : Word16) (bodies : List RecordBody) :
    (c.addGroup stamp bodies).ring.length ≤ 48 := by
  unfold CaptureUnit.addGroup
  split
  · exact h
  · exact addRecords_ring stamp _ bodies h

theorem takeTrigger_ring (c : CaptureUnit) (count : Nat) : (c.takeTrigger count).ring = c.ring := by
  unfold CaptureUnit.takeTrigger
  split <;> rfl

/-- The counts and the ring stay in range from `s` to `t`. -/
structure RecordsKept (s t : State) : Prop where
  counts : KindCountsFit s.fault.counts → KindCountsFit t.fault.counts
  ring   : s.capture.ring.length ≤ 48 → t.capture.ring.length ≤ 48

theorem RecordsKept.of {s t : State} (counts : t.fault.counts = s.fault.counts)
    (ring : t.capture.ring = s.capture.ring) : RecordsKept s t :=
  ⟨fun h => counts ▸ h, fun h => ring ▸ h⟩

theorem faultLineMoved_capture (before : Bool) (s : State) : (s.faultLineMoved before).capture = s.capture := by
  unfold State.faultLineMoved
  split <;> rfl

theorem takeReport_recordsKept (s : State) (kind : FaultKind) (subject : Option Subject) (life : Lifecycle) :
    RecordsKept s (s.takeReport kind subject life) := by
  refine ⟨fun h => ?_, fun h => ?_⟩
  · rw [takeReport_fault]
    exact bumpCount_fits h kind
  · unfold State.takeReport
    rw [faultLineMoved_capture]
    split
    · exact (takeTrigger_ring _ _).symm ▸ h
    · exact h

theorem recordsKept_carried : Carried RecordsKept where
  refl _ := .of rfl rfl
  trans h k := ⟨k.counts ∘ h.counts, k.ring ∘ h.ring⟩
  free _ _ := .of rfl rfl
  agenda _ _ := .of rfl rfl
  echoes _ _ := .of rfl rfl
  eval _ _ := .of rfl rfl
  timers _ _ := .of rfl rfl
  report := takeReport_recordsKept
  trigger _ := .of rfl (takeTrigger_ring _ _)
  group _ bodies := ⟨id, fun h => addGroup_ring h _ bodies⟩
  request s r := by
    unfold State.takeEdgeRequest
    split
    · exact .of rfl rfl
    · exact .of rfl rfl
    · split
      · exact .of rfl rfl
      · exact takeReport_recordsKept s _ _ _
    all_goals exact .of rfl rfl
  output _ _ _ := .of rfl rfl
  field _ := .of rfl rfl
  desired _ _ _ := .of rfl rfl

/-! ### What the invariants read, and what moves it -/

/-- The fields of a state of which the invariants of every step speak. -/
structure Watched where
  lifecycle  : Lifecycle
  standing   : Standing
  phase      : LoaderPhase
  held       : Bool
  commit     : CommitUnit
  attempts   : Nat
  candidates : List Station
  lossSet    : List Station
  busySet    : List Station
  points     : List Point
  counts     : List Nat
  ring       : List CaptureRecord

def State.watched (s : State) : Watched where
  lifecycle := s.lifecycle
  standing := s.image.standing
  phase := s.loader.phase
  held := s.loader.held
  commit := s.commit
  attempts := s.join.attempts
  candidates := s.join.candidates
  lossSet := s.asm.lossSet
  busySet := s.asm.busySet
  points := s.asm.rows.map (·.point)
  counts := s.fault.counts
  ring := s.capture.ring

/-- R46 to R48, R56 to R58: what an event does to the commit unit of a station in `life`: a count stays as it is or
takes a value of its range, a frame comes into flight on the medium only, and the frame that is found stopped has no
record any more. -/
structure CommitMoves (life : Lifecycle) (c d : CommitUnit) : Prop where
  idle     : d.idle ≤ 10 ∨ d.idle = c.idle := by simp
  vetoes   : d.vetoes ≤ 3 ∨ d.vetoes = c.vetoes := by simp
  failures : d.failures ≤ 7 ∨ d.failures = c.failures := by simp
  flight   : d.flight ≠ none → c.flight ≠ none ∨ life.onMedium = true := by simp +contextual
  stopped  : d.stopped = true → d.reception = none ∨ c.stopped = true ∧ d.reception = c.reception := by
    simp +contextual

/-- The kinds of event that move what is watched. -/
inductive Moves : Watched → Watched → Prop
  | commit {w : Watched} {c : CommitUnit} : CommitMoves w.lifecycle w.commit c → Moves w { w with commit := c }
  /-- R95: the attempt count. -/
  | attempts {w : Watched} {n : Nat} : n ≤ 3 → Moves w { w with attempts := n }
  /-- R65, R72, R96, R106: the station sets and the contribution points. -/
  | sets {w : Watched} {candidates lossSet busySet points : List Nat} :
      (w.candidates.Pairwise (· < ·) → candidates.Pairwise (· < ·)) →
      (w.lossSet.Pairwise (· < ·) → lossSet.Pairwise (· < ·)) →
      (w.busySet.Pairwise (· < ·) → busySet.Pairwise (· < ·)) →
      (w.points.Pairwise (· < ·) → points.Pairwise (· < ·)) →
      Moves w { w with candidates := candidates, lossSet := lossSet, busySet := busySet, points := points }
  /-- R157, R161: the counts and the ring. -/
  | records {w : Watched} {counts : List Nat} {ring : List CaptureRecord} :
      (KindCountsFit w.counts → KindCountsFit counts) → (w.ring.length ≤ 48 → ring.length ≤ 48) →
      Moves w { w with counts := counts, ring := ring }
  /-- R176, R183: a reset or a RESTART. -/
  | resets (w : Watched) : Moves w { w with
      lifecycle := .start, standing := .none, phase := .none, held := true, commit := CommitUnit.reset,
      attempts := 0, candidates := [], lossSet := [], busySet := [], points := [] }
  /-- R177: the reset ends with a station number. -/
  | numbered {w : Watched} : w.held = true → Moves w { w with held := false, phase := .header }
  /-- R178: the second transfer is waited for, or none any more. -/
  | transfers {w : Watched} (phase : LoaderPhase) : w.phase ≠ .none → Moves w { w with phase := phase }
  /-- R177, R181: the straps or the configuration are refused. -/
  | refused {w : Watched} : w.held = true ∨ w.phase ≠ .none →
      Moves w { w with lifecycle := .configFault, held := false, phase := .none }
  /-- R182: the handover to LISTEN. -/
  | handsOver {w : Watched} : w.held = false → w.phase = .none →
      Moves w { w with lifecycle := .listen, standing := .none }
  /-- R95, R114: a return to LISTEN. -/
  | returns {w : Watched} : w.lifecycle = .listen ∨ w.lifecycle = .detached →
      Moves w { w with lifecycle := .listen, standing := .none }
  /-- R98: the station founds. -/
  | founds {w : Watched} : w.lifecycle = .listen → Moves w { w with standing := .founding }
  /-- R103: the own JOIN has committed. -/
  | joins {w : Watched} : w.lifecycle = .listen ∨ w.lifecycle = .joining ∧ w.standing ≠ .complete →
      Moves w { w with
        lifecycle := .joining, standing := if w.standing = .founding then .frozen else w.standing }
  /-- R21: a joiner gives its founding image up. -/
  | givesUp {w : Watched} : w.lifecycle = .joining → Moves w { w with standing := .none }
  /-- R107, R108: the image of a joiner is complete. -/
  | completes {w : Watched} : w.lifecycle = .joining → Moves w { w with standing := .complete }
  /-- R110: the own ENTRY has committed. -/
  | activates {w : Watched} : w.lifecycle = .joining → w.standing = .complete → Moves w { w with lifecycle := .active }
  /-- R113, R115: the station leaves the link. -/
  | leaves {w : Watched} {life : Lifecycle} : life = .detached ∨ life = .linkFault →
      w.lifecycle ≠ .start ∨ w.commit.flight ≠ none →
      Moves w { w with
        lifecycle := life, standing := .none, commit := CommitUnit.reset, candidates := [], lossSet := [],
        busySet := [] }

/-- What is watched comes from `s` to `t` by events of these kinds. -/
def Moved (s t : State) : Prop := Relation.ReflTransGen Moves s.watched t.watched

/-! ### What the moves keep -/

def Watched.CountsFit (w : Watched) : Prop :=
  w.commit.idle ≤ 10 ∧ w.commit.vetoes ≤ 3 ∧ w.commit.failures ≤ 7 ∧ w.attempts ≤ 3

theorem Moves.countsFit {w v : Watched} (h : Moves w v) : w.CountsFit → v.CountsFit := by
  rintro ⟨idle, vetoes, failures, attempts⟩
  cases h with
  | commit h =>
    exact ⟨h.idle.elim id (· ▸ idle), h.vetoes.elim id (· ▸ vetoes), h.failures.elim id (· ▸ failures), attempts⟩
  | attempts le => exact ⟨idle, vetoes, failures, le⟩
  | resets => exact ⟨Nat.zero_le _, Nat.zero_le _, Nat.zero_le _, Nat.zero_le _⟩
  | leaves => exact ⟨Nat.zero_le _, Nat.zero_le _, Nat.zero_le _, attempts⟩
  | _ => exact ⟨idle, vetoes, failures, attempts⟩

def Watched.RecordsFit (w : Watched) : Prop := KindCountsFit w.counts ∧ w.ring.length ≤ 48

theorem Moves.recordsFit {w v : Watched} (h : Moves w v) (fit : w.RecordsFit) : v.RecordsFit := by
  cases h with
  | records counts ring => exact ⟨counts fit.1, ring fit.2⟩
  | _ => exact fit

def Watched.SetsFit (w : Watched) : Prop :=
  w.lossSet.Pairwise (· < ·) ∧ w.busySet.Pairwise (· < ·) ∧ w.candidates.Pairwise (· < ·) ∧ w.points.Pairwise (· < ·)

theorem Moves.setsFit {w v : Watched} (h : Moves w v) : w.SetsFit → v.SetsFit := by
  rintro ⟨lossSet, busySet, candidates, points⟩
  cases h with
  | sets keepsC keepsL keepsB keepsP => exact ⟨keepsL lossSet, keepsB busySet, keepsC candidates, keepsP points⟩
  | resets => exact ⟨.nil, .nil, .nil, .nil⟩
  | leaves => exact ⟨.nil, .nil, .nil, points⟩
  | _ => exact ⟨lossSet, busySet, candidates, points⟩

structure Watched.LifecycleFits (w : Watched) : Prop where
  standing : standingAllowed w.lifecycle w.standing = true
  flight   : w.commit.flight ≠ none → w.lifecycle.onMedium = true
  phase    : w.phase ≠ .none → w.lifecycle = .start
  held     : w.held = true → w.lifecycle = .start
  stopped  : w.commit.stopped = true → w.commit.reception = none

/-- R56, R176: a station out of START has no loader at work, is not held, and a station in START has no frame in
flight and no image. -/
theorem Watched.LifecycleFits.awake {w : Watched} (h : w.LifecycleFits) (life : w.lifecycle ≠ .start) :
    w.phase = .none ∧ w.held = false :=
  ⟨not_not.mp fun p => life (h.phase p), Bool.eq_false_iff.mpr fun p => life (h.held p)⟩

theorem Watched.LifecycleFits.starting {w : Watched} (h : w.LifecycleFits) (life : w.lifecycle = .start) :
    w.commit.flight = none ∧ w.standing = .none := by
  refine ⟨not_not.mp fun p => ?_, ?_⟩
  · have := h.flight p
    rw [life] at this
    cases this
  · have := h.standing
    rw [life] at this
    cases st : w.standing <;> simp [st, standingAllowed] at this ⊢

/-- R94, R103: a founding image becomes a frozen one, and no other image changes its standing. -/
theorem standingAllowed_joins {life : Lifecycle} {standing : Standing}
    (allowed : standingAllowed life standing = true) (before : life = .listen ∨ life = .joining) :
    standingAllowed .joining (if standing = .founding then .frozen else standing) = true := by
  rcases before with rfl | rfl
  · revert allowed
    cases standing <;> decide
  · revert allowed
    cases standing <;> decide

theorem Moves.lifecycleFits {w v : Watched} (h : Moves w v) (fit : w.LifecycleFits) : v.LifecycleFits := by
  have ⟨standing, flight, phase, held, stopped⟩ := fit
  cases h with
  | commit h =>
    refine ⟨standing, fun p => (h.flight p).elim flight id, phase, held, fun p => ?_⟩
    rcases h.stopped p with gone | ⟨before, same⟩
    · exact gone
    · exact same.trans (stopped before)
  | attempts | sets | records => exact ⟨standing, flight, phase, held, stopped⟩
  | resets => exact ⟨rfl, fun p => absurd rfl p, fun _ => rfl, fun _ => rfl, fun _ => rfl⟩
  | numbered low => exact ⟨standing, flight, fun _ => held low, nofun, stopped⟩
  | transfers _ waits => exact ⟨standing, flight, fun _ => phase waits, held, stopped⟩
  | refused early =>
    obtain ⟨grounded, none⟩ := fit.starting (early.elim held phase)
    exact ⟨by rw [none]; rfl, fun p => absurd grounded p, fun p => absurd rfl p, nofun, stopped⟩
  | handsOver awake done =>
    exact ⟨rfl, fun _ => rfl, fun p => absurd done p, fun p => by simp [awake] at p, stopped⟩
  | returns life =>
    obtain ⟨quiet, awake⟩ := fit.awake (by rcases life with life | life <;> simp [life])
    exact ⟨rfl, fun _ => rfl, fun p => absurd quiet p, fun p => by simp [awake] at p, stopped⟩
  | founds life => exact ⟨by rw [life]; rfl, flight, phase, held, stopped⟩
  | joins life =>
    obtain ⟨quiet, awake⟩ := fit.awake (by rcases life with life | ⟨life, -⟩ <;> simp [life])
    exact ⟨standingAllowed_joins standing (life.imp_right And.left), fun _ => rfl, fun p => absurd quiet p,
      fun p => by simp [awake] at p, stopped⟩
  | givesUp life => exact ⟨by rw [life]; rfl, flight, phase, held, stopped⟩
  | completes life => exact ⟨by rw [life]; rfl, flight, phase, held, stopped⟩
  | activates life complete =>
    obtain ⟨quiet, awake⟩ := fit.awake (by simp [life])
    exact ⟨by rw [complete]; rfl, fun _ => rfl, fun p => absurd quiet p, fun p => by simp [awake] at p, stopped⟩
  | leaves off onLink =>
    have life : w.lifecycle ≠ .start := onLink.elim id fun flies start => flies (fit.starting start).1
    obtain ⟨quiet, awake⟩ := fit.awake life
    refine ⟨?_, fun p => absurd rfl p, fun p => absurd quiet p, fun p => by simp [awake] at p, fun _ => rfl⟩
    rcases off with rfl | rfl <;> rfl

end Sys2Proof.Machine

/-! SUPPORT. What resets, departures and the entry into LISTEN move of the watched fields, and what the taking of
hand-offs does (R95, R96, R113, R115, R127, R174, R176, R177, R181, R183). -/

namespace Sys2Proof.Machine

/-! ### The operations of the blocks, by what they move -/

theorem Moved.refl (s : State) : Moved s s := Relation.ReflTransGen.refl

theorem Moved.trans {a b c : State} (h : Moved a b) (k : Moved b c) : Moved a c := Relation.ReflTransGen.trans h k

theorem Moved.of_eq {s t : State} (h : t.watched = s.watched) : Moved s t := by
  unfold Moved
  rw [h]

theorem Moved.after {s u t : State} (h : Moved u t) (eq : u.watched = s.watched) : Moved s t := (Moved.of_eq eq).trans h

theorem Moved.move {s t : State} {w : Watched} (h : Moves s.watched w) (eq : t.watched = w) : Moved s t := by
  subst eq
  exact .single h

theorem Moved.foldl {α : Type} {f : State → α → State} (hf : ∀ s a, Moved s (f s a)) :
    ∀ (l : List α) (s : State), Moved s (l.foldl f s)
  | [], s => .refl s
  | a :: l, s => (hf s a).trans (foldl hf l (f s a))

theorem Moved.ofCommit {s : State} {c : CommitUnit} (h : CommitMoves s.lifecycle s.commit c) :
    Moved s { s with commit := c } := .move (.commit h) rfl

theorem Untouched.watched {s t : State} (h : Untouched s t) :
    t.watched = { s.watched with counts := t.fault.counts, ring := t.capture.ring } := by
  have points := h.sameStation.points
  unfold State.watched
  rw [h.lifecycle, h.image, h.loader, h.commit, h.join, h.lossSet, h.busySet, points]

theorem Untouched.moved {s t : State} (h : Untouched s t) (records : RecordsKept s t) : Moved s t :=
  .move (.records records.counts records.ring) h.watched

theorem finish_moved (s : State) : Moved s s.finish := (finish_untouched s).moved (recordsKept_carried.finish s)

theorem someTasks_moved (s : State) : Moved s s.someTasks :=
  (someTasks_untouched s).moved (recordsKept_carried.someTasks s)

theorem runTasks_moved (n : Nat) (s : State) : Moved s (runTasks n s) :=
  (untouched_carried.runTasks n s).moved (recordsKept_carried.runTasks n s)

theorem someEchoes_moved (s : State) : Moved s s.someEchoes :=
  (untouched_carried.toKept.someEchoes s).moved (recordsKept_carried.toKept.someEchoes s)

theorem report_moved (s : State) (kind : FaultKind) (subject : Option Subject) : Moved s (s.report kind subject) :=
  (report_untouched s kind subject).moved (takeReport_recordsKept s kind subject s.lifecycle)

theorem faultLineMoved_moved (before : Bool) (s : State) : Moved s (s.faultLineMoved before) :=
  (faultLineMoved_untouched before s).moved
    (.of (by rw [faultLineMoved_fault]) (by rw [faultLineMoved_capture]))

/-! ### Resets and departures (R113, R115, R176, R177, R181, R183) -/

theorem toConfigFault_watched (u : State) :
    u.toConfigFault.watched = { u.watched with lifecycle := .configFault, phase := .none } := rfl

/-- R177, R181: a report, and the station goes to CONFIG-FAULT. -/
theorem reportedFault_moved {s u : State} (early : s.loader.held = true ∨ s.loader.phase ≠ .none)
    (refused : u.toConfigFault.watched =
      { s.watched with lifecycle := .configFault, held := false, phase := .none })
    (kind : FaultKind) (subject : Option Subject) : Moved s (u.report kind subject).toConfigFault := by
  have report := (report_untouched u kind subject).watched
  have kept := takeReport_recordsKept u kind subject u.lifecycle
  have moves : Moves u.toConfigFault.watched (u.report kind subject).toConfigFault.watched := by
    rw [toConfigFault_watched, toConfigFault_watched, report]
    exact .records kept.counts kept.ring
  rw [refused] at moves
  exact .tail (.single (.refused early)) moves

/-- R177: the straps are read while the reset holds. -/
theorem readStraps_moved {s : State} (held : s.loader.held = true) : Moved s s.readStraps := by
  unfold State.readStraps
  dsimp only
  split
  · exact .move (.numbered held) rfl
  · exact reportedFault_moved (.inl held) rfl _ _

theorem resetBlocks_moved (s : State) : Moved s s.resetBlocks :=
  Relation.ReflTransGen.tail (.single (.resets _)) (.records (fun _ => zeroCounts_fit) fun _ => Nat.zero_le _)

/-- R160, R164: the counts outlive a RESTART, and a ring that does is the one before. -/
theorem performRestart_moved (s : State) : Moved s s.performRestart := by
  unfold State.performRestart
  dsimp only
  refine Moved.trans ?_ (readStraps_moved rfl)
  refine Relation.ReflTransGen.tail (.single (.resets _)) (.records id fun h => ?_)
  change s.capture.afterRestart.ring.length ≤ 48
  unfold CaptureUnit.afterRestart
  split
  · exact h
  · exact Nat.zero_le _

theorem restartAfter_moved (s : State) : Moved s s.restartAfter := by
  unfold State.restartAfter
  dsimp only
  exact (someTasks_moved s).trans (((runTasks_moved _ _).trans (performRestart_moved _)).after rfl)

/-- `u` has come from `s` by way of a station that has started, or that sends, up to what has become of the commit unit
since. -/
def Leaving (s u : State) : Prop :=
  ∃ v c, Relation.ReflTransGen Moves s.watched v ∧ (v.lifecycle ≠ .start ∨ v.commit.flight ≠ none) ∧
    u.watched = { v with commit := c }

theorem Leaving.of {s u : State} (h : Moved s u) (started : u.lifecycle ≠ .start) : Leaving s u :=
  ⟨u.watched, u.commit, h, .inl started, rfl⟩

theorem Leaving.trans {s u t : State} (h : Leaving s u) (untouched : Untouched u t) (records : RecordsKept u t) :
    Leaving s t := by
  obtain ⟨v, c, moved, may, eq⟩ := h
  have counts : u.fault.counts = v.counts := congrArg Watched.counts eq
  have ring : u.capture.ring = v.ring := congrArg Watched.ring eq
  refine ⟨{ v with counts := t.fault.counts, ring := t.capture.ring }, c, .tail moved ?_, may, ?_⟩
  · exact .records (counts ▸ records.counts) (ring ▸ records.ring)
  · rw [untouched.watched, eq]

theorem Leaving.someTasks {s u : State} (h : Leaving s u) : Leaving s u.someTasks :=
  h.trans (someTasks_untouched u) (recordsKept_carried.someTasks u)

theorem Leaving.report {s u : State} (h : Leaving s u) (kind : FaultKind) (subject : Option Subject) :
    Leaving s (u.report kind subject) :=
  h.trans (report_untouched u kind subject) (takeReport_recordsKept u kind subject u.lifecycle)

theorem leaveLink_moved {s u : State} (h : Leaving s u) {life : Lifecycle}
    (off : life = .detached ∨ life = .linkFault) (holdoff : Option Nat) : Moved s (u.leaveLink life holdoff) := by
  obtain ⟨v, c, moved, may, eq⟩ := h
  have left : (u.leaveLink life holdoff).watched = { u.watched with
      lifecycle := life, standing := .none, commit := CommitUnit.reset, candidates := [], lossSet := [],
      busySet := [] } := by
    simp [State.watched, State.leaveLink, Assembler.detach, Assembler.reset, JoinController.reset, ImageBlock.reset,
      Function.comp_def]
  refine Relation.ReflTransGen.tail moved ?_
  rw [left, eq]
  exact .leaves off may

/-- R113, R174: the station leaves the link for DETACHED, and performs an open RESTART in place of the holdoff. -/
def State.departs (s : State) : State :=
  if s.service.restartOpen then
    let left := s.someTasks.leaveLink .detached none
    (runTasks left.agenda.length left).someEchoes.performRestart
  else s.someTasks.leaveLink .detached (some 0)

theorem detach_some (s : State) (cause : FaultKind) :
    s.detach (some cause) = (s.someTasks.report cause none).departs := rfl

theorem detach_departs (s : State) : s.detach none = s.departs := rfl

theorem departs_moved {s u : State} (h : Leaving s u) : Moved s u.departs := by
  have left := leaveLink_moved h.someTasks (.inl rfl)
  unfold State.departs
  dsimp only
  split
  · exact (left none).trans ((runTasks_moved _ _).trans ((someEchoes_moved _).trans (performRestart_moved _)))
  · exact left _

/-- R113: a detach, a RESTART in its place or not. -/
theorem detach_moved {s u : State} (h : Leaving s u) (cause : Option FaultKind) : Moved s (u.detach cause) := by
  cases cause with
  | none =>
    rw [detach_departs]
    exact departs_moved h
  | some k =>
    rw [detach_some]
    exact departs_moved (h.someTasks.report k none)

theorem toLinkFault_moved {s u : State} (h : Leaving s u) (cause : FaultKind) : Moved s (u.toLinkFault cause) :=
  leaveLink_moved (h.report cause none).someTasks (.inr rfl) none

/-- R96: the commit unit and the candidates at an entry into LISTEN. -/
theorem enterListen_moved {s : State} {n : Nat} (few : n ≤ 3)
    (listens : Moves s.watched { s.watched with lifecycle := .listen, standing := .none }) :
    Moved s (s.enterListen n) :=
  have idle : CommitMoves .listen s.commit { s.commit with idle := 0 } := {}
  Relation.ReflTransGen.tail (.tail (.tail (.single listens) (.attempts few)) (.commit idle))
    (.sets (fun _ => .nil) id id id)

/-- R95: a return to LISTEN. -/
theorem returnToListen_moved {s : State} (life : s.lifecycle = .listen ∨ s.lifecycle = .detached) :
    Moved s s.returnToListen := by
  unfold State.returnToListen
  split
  · rename_i few
    exact enterListen_moved few (.returns life)
  · exact toLinkFault_moved (.of (.refl s) (by rcases life with life | life <;> simp [life])) _

end Sys2Proof.Machine

/-! SUPPORT. What the respondent, the service unit and the live blocks move of the watched fields (R54, R72, R74, R84,
R102, R106, R110 to R112, R159, R165 to R169). -/

namespace Sys2Proof.Machine

/-! ### Withdrawals, the respondent and the service unit (R72, R74, R102, R106, R159, R166 to R169) -/

theorem CommitMoves.pacing (life : Lifecycle) (c : CommitUnit) (gap : Option Nat) :
    CommitMoves life c { c with pacing := gap } :=
  ⟨.inr rfl, .inr rfl, .inr rfl, .inl, fun h => .inr ⟨h, rfl⟩⟩

theorem CommitMoves.refl (life : Lifecycle) (c : CommitUnit) : CommitMoves life c c := .pacing life c c.pacing

/-- R74: the frame in flight is marked, or no frame is. -/
theorem FlightKept.commitMoves {s t : State} (h : FlightKept s t) (life : Lifecycle) :
    CommitMoves life s.commit { s.commit with flight := t.commit.flight } :=
  { CommitMoves.refl life s.commit with flight := fun flies => .inl (mt h.1 flies) }

theorem ServiceOnly.moved {s t : State} (h : ServiceOnly s t) : Moved s t := by
  refine .move (.commit (h.1.commitMoves _)) ?_
  rw [h.2]
  rfl

theorem RespondOnly.moved {s t : State} (h : RespondOnly s t)
    (busy : s.asm.busySet.Pairwise (· < ·) → t.asm.busySet.Pairwise (· < ·)) : Moved s t := by
  refine Relation.ReflTransGen.tail (.single (.commit (h.1.commitMoves _))) ?_
  have eq : t.watched =
      { s.watched with commit := { s.commit with flight := t.commit.flight }, busySet := t.asm.busySet } := by
    rw [h.2]
    rfl
  rw [eq]
  exact .sets id id busy id

theorem clearFaults_moved (s : State) (counts : Bool) : Moved s (s.clearFaults counts) := by
  have indication : ∀ (u : State) on, Moved u (u.latchedIndication on) := fun u on =>
    (faultLineMoved_moved _ _).after rfl
  have record : Moved s (s.clearRecord counts) := by
    refine Moved.trans (b := { s with fault := { s.fault with
      record := none
      counts := if counts then List.replicate 10 0 else s.fault.counts } }) ?_ (faultLineMoved_moved _ _)
    refine .move (.records (fun h => ?_) id) rfl
    split
    · exact zeroCounts_fit
    · exact h
  refine record.trans ?_
  unfold State.clearFaults State.clearOutputFaults
  dsimp only
  split
  · exact .of_eq rfl
  · exact (indication _ _).after rfl

theorem handResponse_moved (s : State) : Moved s s.handResponse := (handResponse_only s).moved

theorem openSession_moved (s : State) (x : Station) (tag : Byte) (q : Request) : Moved s (s.openSession x tag q) := by
  unfold State.openSession
  dsimp only
  refine Moved.trans ?_ (handResponse_moved _)
  split
  · exact (clearFaults_moved s _).trans (.of_eq rfl)
  · exact .move (.records id fun _ => Nat.zero_le _) rfl
  · split <;> exact .of_eq rfl
  all_goals exact .of_eq rfl

theorem takeServiceRequest_moved (s : State) (x : Station) (tag : Byte) (q : Request) :
    Moved s (s.takeServiceRequest x tag q) := by
  unfold State.takeServiceRequest
  split
  · exact openSession_moved s x tag q
  · split
    · exact (abandonSession_only s).moved.trans (openSession_moved _ x tag q)
    · exact (handResponse_moved _).after rfl

theorem serve_moved (s : State) (before : Roster) (f : Frame) : Moved s (s.serve before f) := by
  by_cases request : ∃ x y tag q, f = .svcReq x y tag q
  · obtain ⟨x, y, tag, q, rfl⟩ := request
    unfold State.serve
    dsimp only
    split
    · exact takeServiceRequest_moved s x tag q
    · exact .refl s
  · exact (serve_only s before fun x y tag q h => request ⟨x, y, tag, q, h⟩).moved

theorem dropSnapshotFor_moved (s : State) (j : Station) : Moved s (s.dropSnapshotFor j) := by
  have view := dropSnapshotFor_respondView s j
  exact (dropSnapshotFor_only s j).moved fun h => by
    rw [show (s.dropSnapshotFor j).asm.busySet = _ from congrArg (fun v => v.2.2) view]
    exact h

theorem withdrawBusy_moved (s : State) (j : Station) : Moved s (s.withdrawBusy j) := by
  have view := withdrawBusy_respondView s j
  exact (withdrawBusy_only s j).moved fun h => by
    rw [show (s.withdrawBusy j).asm.busySet = _ from congrArg (fun v => v.2.2) view]
    exact eraseStation_ascending j h

theorem respondToJoin_moved (s : State) (j named : Station) : Moved s (s.respondToJoin j named) := by
  have dropped := (dropSnapshotFor_moved s j).trans (withdrawBusy_moved _ j)
  unfold State.respondToJoin
  dsimp only
  split
  · split
    · exact dropped.trans (.of_eq rfl)
    · exact dropped.trans (.move (.sets id id (insertStation_ascending j) id) rfl)
  · exact dropped

/-- R100, R102, R106: the respondent at an accepted live frame. -/
theorem respond_moved (s : State) (before : Roster) (f : Frame) : Moved s (s.respond before f) := by
  unfold State.respond
  split
  · split
    · exact respondToJoin_moved s _ _
    · exact .refl s
  · split
    · exact (dropSnapshotFor_moved s _).trans (withdrawBusy_moved _ _)
    · exact (dropSnapshotFor_moved s _).trans (withdrawBusy_moved _ _)
    all_goals exact .refl s
  · exact dropSnapshotFor_moved s _
  · exact .refl s

/-! ### Frames at a station whose image is complete (R54, R84, R110 to R112) -/

theorem applyLiveFrame_moved (s : State) (f : Frame) : Moved s (s.applyLiveFrame f) := by
  rw [applyLiveFrame_eq]
  refine .move (.sets id (fun h => ?_) id id) rfl
  have heard : (if frameSender f = s.number then s.asm.lossSet
      else eraseStation (frameSender f) s.asm.lossSet).Pairwise (· < ·) := by
    split
    · exact h
    · exact eraseStation_ascending _ h
  cases f with
  | loss x y => exact eraseStation_ascending y heard
  | _ => exact heard

theorem takeLiveFrame_moved (s : State) (f : Frame) : Moved s (s.takeLiveFrame f) :=
  (applyLiveFrame_moved s f).trans ((respond_moved _ _ f).trans ((serve_moved _ _ f).trans (.of_eq rfl)))

theorem noteStray_moved {s : State} (started : s.lifecycle ≠ .start) (x : Station) : Moved s (s.noteStray x) := by
  unfold State.noteStray
  dsimp only
  split
  · exact detach_moved (u := s.strayNoted x) (.of (.of_eq rfl) started) _
  · exact .of_eq rfl

theorem deliverLive_moved {s : State} (started : s.lifecycle ≠ .start) (f : Frame) (own : Bool) :
    Moved s (s.deliverLive f own) := by
  unfold State.deliverLive
  split
  · split
    · exact .refl s
    · split
      · exact noteStray_moved started _
      · exact noteStray_moved started _
      all_goals exact .refl s
  · split
    · exact detach_moved (.of (.refl s) started) _
    · exact takeLiveFrame_moved s f

/-- R42, R110: the own ENTRY leaves a joiner whose image is complete so, whether its roster accepts it or not. -/
theorem deliverLive_ownEntry (s : State) (x : Station) (p : Nat) (items : List Item) :
    (s.deliverLive (.entry x p items) true).lifecycle = s.lifecycle ∧
    (s.deliverLive (.entry x p items) true).image.standing = s.image.standing := by
  unfold State.deliverLive
  split
  · simp
  · obtain ⟨-, eq⟩ := effectsOf_eq s (f := .entry x p items) (by simp)
    rw [if_neg (by simp [namesLost]), takeLiveFrame_eq, State.post_lifecycle, State.post_image, eq]
    exact ⟨rfl, rfl⟩

/-- R81, R110: the station becomes ACTIVE. -/
theorem ownEntry_moved {s : State} (life : s.lifecycle = .joining) (complete : s.image.standing = .complete) :
    Moved s s.ownEntry :=
  Relation.ReflTransGen.tail (.single (.activates life complete)) (.attempts (Nat.zero_le _))

theorem checkIsolation_moved (s : State) (before : Roster) : Moved s (s.checkIsolation before) := by
  unfold State.checkIsolation
  split
  · rename_i falls
    refine detach_moved (.of (.refl s) fun start => ?_) _
    simp [start, Lifecycle.participates] at falls
  · exact .refl s

end Sys2Proof.Machine

/-! SUPPORT. What the join controller, the close of a check slot, sending and the loader move of the watched fields (R43
to R62, R74, R77, R96 to R108, R177 to R182). -/

namespace Sys2Proof.Machine

/-! ### The join controller (R96 to R108) -/

theorem noteActivity_moved (s : State) : Moved s s.noteActivity := .of_eq (by rw [noteActivity_eq]; rfl)

theorem noteCandidate_moved (s : State) (f : Frame) : Moved s (s.noteCandidate f) := by
  unfold State.noteCandidate
  split
  · exact .move (.sets (insertStation_ascending _) id id id) rfl
  · exact .refl s

theorem endListening_moved {s : State} (life : s.lifecycle = .listen) : Moved s s.endListening := by
  unfold State.endListening
  dsimp only
  split
  · exact .of_eq rfl
  · split
    · refine (returnToListen_moved ?_).after rfl
      exact .inl life
    · exact .move (.founds life) rfl

theorem applyFounding_moved (s : State) (f : Frame) : Moved s (s.applyFounding f) := by
  unfold State.applyFounding
  split
  · exact .of_eq rfl
  · split
    · exact .of_eq rfl
    · exact .refl s

/-- R103: the commit of the own JOIN. -/
theorem becomeJoining_moved {s : State}
    (life : s.lifecycle = .listen ∨ s.lifecycle = .joining ∧ s.image.standing ≠ .complete) (y : Station) :
    Moved s (s.becomeJoining y) := by
  have vetoes : CommitMoves s.lifecycle s.commit { s.commit with vetoes := 0 } :=
    { CommitMoves.refl _ _ with vetoes := .inl (Nat.zero_le _) }
  refine Moved.trans (b := { s with commit := { s.commit with vetoes := 0 } }) (.move (.commit vetoes) rfl)
    (.move (.joins life) ?_)
  by_cases founding : s.image.standing = .founding <;> simp [State.watched, State.becomeJoining, founding]

theorem giveUpFounding_moved {s : State} (life : s.lifecycle = .joining) : Moved s s.giveUpFounding :=
  .move (.givesUp life) rfl

theorem nextCandidate_moved {s : State} (life : s.lifecycle = .joining) : Moved s s.nextCandidate := by
  unfold State.nextCandidate
  split
  · exact .of_eq rfl
  · exact detach_moved (.of (.refl s) (by simp [life])) _

theorem keepInBacklog_moved {s : State} (life : s.lifecycle = .joining) (f : Frame) : Moved s (s.keepInBacklog f) := by
  unfold State.keepInBacklog
  split
  · exact detach_moved (.of (.refl s) (by simp [life])) _
  · exact .of_eq rfl

theorem completeFrom_moved {s : State} (life : s.lifecycle = .joining) (r : Replay) : Moved s (s.completeFrom r) :=
  .move (.completes life) rfl

theorem completeFromFounding_moved {s : State} (life : s.lifecycle = .joining) : Moved s s.completeFromFounding := by
  have started : s.lifecycle ≠ .start := by simp [life]
  have fails : ∀ u : State, u.watched = s.watched → Moved s (u.giveUpFounding.detach none) := fun u same => by
    have lifeU : u.lifecycle = .joining := (congrArg Watched.lifecycle same).trans life
    exact detach_moved (.of ((giveUpFounding_moved lifeU).after same) (by simp [lifeU])) none
  unfold State.completeFromFounding
  split
  · exact fails s rfl
  · dsimp only
    split
    · exact fails _ rfl
    · exact completeFrom_moved life _

theorem answerExpires_moved {s : State} (life : s.lifecycle = .joining) : Moved s s.answerExpires := by
  unfold State.answerExpires
  split
  · exact completeFromFounding_moved life
  · exact nextCandidate_moved life

/-- R103, R107: a part that is taken, and the completion that the last one brings. -/
theorem takePart_moved {s : State} (life : s.lifecycle = .joining) (x : Station) (k : Nat) (body : PartBody) :
    Moved s (s.takePart x k body) := by
  obtain ⟨u, eq, lifeU, based⟩ : ∃ u, (if s.image.standing = .frozen then
      { s.giveUpFounding with join := { s.giveUpFounding.join with candidates := [] } } else s) = u ∧
      u.lifecycle = .joining ∧ Moved s u := by
    refine ⟨_, rfl, ?_, ?_⟩
    · split <;> exact life
    · split
      · exact (giveUpFounding_moved life).trans (.move (.sets (fun _ => .nil) id id id) rfl)
      · exact .refl s
  unfold State.takePart
  split
  · exact .refl s
  · dsimp only
    rw [eq]
    refine based.trans ?_
    split
    · refine (completeFrom_moved ?_ _).after rfl
      exact lifeU
    · exact .of_eq rfl

theorem takeBusy_moved {s : State} (life : s.lifecycle = .joining) (x : Station) : Moved s (s.takeBusy x) := by
  unfold State.takeBusy
  dsimp only
  rw [apply_ite (Moved s)]
  exact ite_prop_iff_or.mpr (by simp [nextCandidate_moved life, Moved.refl])

/-! ### The close of a check slot (R53 to R58) -/

theorem deliverListening_moved {s : State} (life : s.lifecycle = .listen) (f : Frame) (own : Bool) :
    Moved s (s.deliverListening f own) := by
  unfold State.deliverListening
  dsimp only
  split
  · obtain ⟨u, eq, lifeU, founded⟩ : ∃ u, (if s.image.standing = .founding then s.applyFounding f else s) = u ∧
        u.lifecycle = .listen ∧ Moved s u := by
      refine ⟨_, rfl, ?_, ?_⟩
      · split
        · exact (applyFounding_lifecycle s f).trans life
        · exact life
      · split
        · exact applyFounding_moved s f
        · exact .refl s
    simp only [eq]
    split
    · exact founded.trans (becomeJoining_moved (.inl lifeU) _)
    · exact founded
  · split
    · exact (noteCandidate_moved s f).trans (applyFounding_moved _ f)
    · exact noteCandidate_moved s f

theorem deliverJoiner_moved {s : State} (life : s.lifecycle = .joining) (incomplete : s.image.standing ≠ .complete)
    (f : Frame) (own : Bool) : Moved s (s.deliverJoiner f own) := by
  unfold State.deliverJoiner
  split
  · split
    · exact becomeJoining_moved (.inr ⟨life, incomplete⟩) _
    · exact .refl s
  · split
    · exact detach_moved (.of (.refl s) (by simp [life])) _
    · split
      · split
        · exact takePart_moved life _ _ _
        · exact .refl s
      · split
        · exact takeBusy_moved life _
        · exact .refl s
      · split
        · exact keepInBacklog_moved life _
        · exact .refl s

/-- R54, R55: a committed frame at the blocks, by the lifecycle. -/
theorem deliver_moved (s : State) (f : Frame) (own : Bool) : Moved s (s.deliver f own) := by
  unfold State.deliver
  split
  next life => exact deliverListening_moved life f own
  next life =>
    have live : ∀ f own, Moved s (s.deliverLive f own) := deliverLive_moved (by simp [life])
    split
    next complete =>
      split
      next x p items =>
        obtain ⟨same, standing⟩ := deliverLive_ownEntry s x p items
        have untouched := someTasks_untouched (s.deliverLive (.entry x p items) true)
        exact ((live _ _).trans (someTasks_moved _)).trans (ownEntry_moved
          (untouched.lifecycle.trans (same.trans life))
          ((congrArg ImageBlock.standing untouched.image).trans (standing.trans complete)))
      next => exact live _ _
    next incomplete => exact deliverJoiner_moved life incomplete f own
  next life => exact deliverLive_moved (by simp [life]) f own
  all_goals exact .refl s

theorem partSent_moved (s : State) : Moved s s.partSent := by
  unfold State.partSent
  split
  · split <;> exact .of_eq rfl
  · exact .of_eq rfl

/-- R74, R76: the slot that the committed frame came from. -/
theorem settleSlot_moved (s : State) (fl : Flight) (wasLost : Bool) : Moved s (s.settleSlot fl wasLost) := by
  unfold State.settleSlot
  split
  next =>
    split
    · exact .of_eq (by simp [State.watched, rowsEntered_points])
    · exact .of_eq rfl
  next => exact .refl s
  next => exact .refl s
  next => exact .refl s
  next => exact partSent_moved s
  next j _ => exact .move (.sets id id (eraseStation_ascending j) id) rfl
  next =>
    rw [releaseCommitted_eq]
    exact .of_eq rfl
  next => exact (handResponse_moved _).after rfl
  next =>
    unfold State.partCommitted
    split <;> exact (handResponse_moved _).after rfl

/-- R77: the outcome COMMITTED of the own frame, or the restart that it brings. -/
theorem settleCommitted_moved (s : State) (fl : Flight) (wasLost : Bool) : Moved s (s.settleCommitted fl wasLost) := by
  have outcome : Moved s s.outcomeTaken :=
    .of_eq (by simp [State.watched, State.outcomeTaken, rowsCommitted_points])
  by_cases restart : fl.origin = .sessionPart true
  · refine outcome.trans ?_
    rw [show s.settleCommitted fl wasLost = s.outcomeTaken.restartAfter from if_pos restart]
    exact restartAfter_moved _
  · cases withdrawn : fl.withdrawn with
    | true =>
      rw [settleCommitted_withdrawn restart withdrawn]
      exact outcome
    | false =>
      rw [settleCommitted_kept restart withdrawn]
      exact outcome.trans (settleSlot_moved _ fl wasLost)

/-- R53, R58, R60: the own frame has committed. -/
theorem ownCommitted_moved (s : State) (fl : Flight) : Moved s (s.frameEnds.ownCommitted fl) := by
  have closed : Moved s s.ownSlotClosed := .ofCommit
    { idle := .inl (Nat.zero_le _), vetoes := .inr rfl, failures := .inl (Nat.zero_le _),
      flight := fun flies => absurd rfl flies, stopped := nofun }
  have taken := closed.trans ((deliver_moved _ fl.frame true).trans (someTasks_moved _))
  exact taken.trans ((settleCommitted_moved _ fl _).trans (checkIsolation_moved _ _))

/-- R46, R47: the commit unit at the close of a slot. -/
theorem frameEnds_moved (s : State) : Moved s s.frameEnds := .ofCommit {}

theorem endPacing_moved (s : State) : Moved s s.endPacing := .ofCommit (.pacing _ _ _)

theorem vetoesCleared_moved (s : State) : Moved s s.vetoesCleared := by
  unfold State.vetoesCleared
  split
  · exact .ofCommit { CommitMoves.refl _ _ with vetoes := .inl (Nat.zero_le _) }
  · exact .refl s

theorem ownVeto_moved {s : State} (started : s.lifecycle ≠ .start) : Moved s s.ownVeto := by
  unfold State.ownVeto
  split
  · rename_i few
    exact .ofCommit { CommitMoves.refl _ _ with vetoes := .inl few }
  · exact detach_moved (.of (.refl s) started) _

theorem peerCommitted_moved {s : State} (life : s.lifecycle ≠ .start) (f : Frame) : Moved s (s.peerCommitted f) := by
  have marked : Moved s s.frameEnds.noteActivity := (frameEnds_moved s).trans (noteActivity_moved _)
  have ended : Moved s s.frameEnds.endPacing.noteActivity :=
    (frameEnds_moved s).trans ((endPacing_moved _).trans (noteActivity_moved _))
  unfold State.peerCommitted
  split
  next => exact marked
  next =>
    dsimp only
    split
    · refine ended.trans (ownVeto_moved ?_)
      rw [noteActivity_eq]
      exact life
    · exact ended
  next =>
    dsimp only
    split
    · refine toLinkFault_moved (.of (ended.trans (vetoesCleared_moved _)) ?_) _
      rw [show s.frameEnds.endPacing.noteActivity.vetoesCleared = s.slotTaken from rfl, slotTaken_eq]
      exact life
    · exact (ended.trans (vetoesCleared_moved _)).trans ((deliver_moved _ _ _).trans (checkIsolation_moved _ _))

theorem onMedium_ne_start {life : Lifecycle} (h : life.onMedium = true) : life ≠ .start := fun start => by
  simp [start, Lifecycle.onMedium] at h

theorem commitFrame_moved (s : State) (f : Frame) : Moved s (s.commitFrame f) := by
  unfold State.commitFrame
  split
  · exact .refl s
  · split
    · exact frameEnds_moved s
    · rename_i onMedium
      split
      · exact ownCommitted_moved s _
      · exact peerCommitted_moved (onMedium_ne_start (by simpa using onMedium)) f

/-! ### Sending (R50, R51, R58, R61, R62) -/

theorem settleFailed_watched (s : State) :
    s.settleFailed.watched = { s.watched with commit := { s.commit with flight := none } } := by
  simp [State.watched, State.settleFailed, rowsFailed_points]

theorem settleFailed_moved (s : State) : Moved s s.settleFailed := by
  have landed : CommitMoves s.lifecycle s.commit { s.commit with flight := none } :=
    { CommitMoves.refl s.lifecycle s.commit with flight := fun flies => absurd rfl flies }
  exact .move (.commit landed) (settleFailed_watched s)

/-- R51, R58: an abort of the frame in flight. -/
theorem abortFlight_moved {s : State} (flies : s.commit.flight ≠ none) : Moved s s.abortFlight := by
  unfold State.abortFlight State.countFailure
  split
  · rename_i few
    exact (settleFailed_moved s).trans (.ofCommit { CommitMoves.refl _ _ with failures := .inl few })
  · exact detach_moved ⟨s.watched, _, .refl, .inr flies, settleFailed_watched s⟩ _

theorem startFrame_moved (s : State) : Moved s s.startFrame := by
  unfold State.startFrame
  split
  · rename_i may
    split
    · rename_i f origin _
      have onMedium : s.lifecycle.onMedium = true := by
        simp only [State.mayStart, Bool.and_eq_true] at may
        exact may.2
      have launched : CommitMoves s.lifecycle s.commit { s.commit with
          idle := 0, reception := some [], flight := some ⟨f, origin, false⟩, stopped := false } :=
        { flight := fun _ => .inr onMedium }
      refine .move (.commit launched) ?_
      have lossSet : (s.asm.startUpdate s.setup.faultPoint).lossSet = s.asm.lossSet := rfl
      have busySet : (s.asm.startUpdate s.setup.faultPoint).busySet = s.asm.busySet := rfl
      by_cases update : origin = .update
      · simp [State.watched, State.launch, update, startUpdate_points, lossSet, busySet]
      · simp [State.watched, State.launch, update]
    · exact .refl s
  · exact .refl s

theorem vetoSlot_moved (s : State) (cells : List Waveform) : Moved s (s.vetoSlot cells) := by
  unfold State.vetoSlot
  split
  · exact .refl s
  · split
    · exact frameEnds_moved s
    · rename_i onMedium
      have life : s.lifecycle ≠ .start := onMedium_ne_start (by simpa using onMedium)
      have ended : Moved s s.frameEnds.endPacing.noteActivity :=
        (frameEnds_moved s).trans ((endPacing_moved _).trans (noteActivity_moved _))
      split
      · rename_i flies
        exact (frameEnds_moved s).trans
          (abortFlight_moved (s := s.frameEnds) (Option.isSome_iff_ne_none.mp flies))
      · dsimp only
        split
        · exact ended
        · split
          · exact ended
          · exact ended.trans (vetoesCleared_moved _)
          · refine ended.trans (ownVeto_moved ?_)
            rw [noteActivity_eq]
            exact life

/-- R46 to R48: a level seen on the medium. -/
theorem observe_commitMoves (life : Lifecycle) (c : CommitUnit) (t : Nat) (onMedium : Bool) (a : Activity) :
    CommitMoves life c (c.observe t onMedium a) := by
  have restarted : CommitMoves life c { c with idle := 0 } := {}
  unfold CommitUnit.observe
  split
  · split
    · exact {}
    · exact restarted
  · split
    · exact {}
    · exact restarted

theorem observe_flight (c : CommitUnit) (t : Nat) (onMedium : Bool) (a : Activity) :
    (c.observe t onMedium a).flight = c.flight := by
  unfold CommitUnit.observe
  repeat' split
  all_goals rfl

/-- R49: only to a sender a level on the medium means anything. -/
theorem flies_of_standingAt {c : CommitUnit} {t : Nat} {a : Activity} {standing : SenderStanding}
    (h : c.standingAt? t a = some standing) : c.flight ≠ none := fun grounded => by
  cases a <;> simp [CommitUnit.standingAt?, grounded] at h

/-- R46, R47, R49 to R51, R55: a level on the medium, at the commit unit, the listener and the sender. -/
theorem activity_moved (s : State) (a : Activity) :
    Moved s (({ s with commit := s.commit.observe s.cellTime s.lifecycle.onMedium a }).noteActivity.senderActs
      (s.commit.standingAt? s.cellTime a)) := by
  have seen : Moved s (State.noteActivity { s with
      commit := s.commit.observe s.cellTime s.lifecycle.onMedium a }) :=
    (Moved.ofCommit (observe_commitMoves _ _ _ _ a)).trans (noteActivity_moved _)
  unfold State.senderActs
  split
  · exact seen.trans (settleFailed_moved _)
  · rename_i aborts
    refine seen.trans (abortFlight_moved ?_)
    rw [noteActivity_eq]
    exact fun grounded => flies_of_standingAt aborts ((observe_flight ..).symm.trans grounded)
  · exact seen
  · exact seen

/-! ### The loader (R177 to R182) -/

theorem loadFails_moved {s : State} (awake : s.loader.held = false) (waits : s.loader.phase ≠ .none)
    (failure : LoadFailure) : Moved s (s.loadFails failure) :=
  reportedFault_moved (.inr waits) (by simp [State.watched, State.toConfigFault, awake]) _ _

theorem startInputs_moved (s : State) : Moved s s.startInputs := by
  have put : ∀ (s : State) n i j, Moved s (s.putInput n i j) := fun s n i j => by
    unfold State.putInput
    dsimp only
    split <;> exact .of_eq rfl
  unfold State.startInputs
  refine Moved.foldl (fun s n => ?_) _ _
  split
  · exact put _ _ _ _
  · exact .refl s

/-- R182: every block has its part of configuration `c`, and the loader has done its work. -/
def State.configured (s : State) (c : StationSetup) : State :=
  { s with
    loader := { s.loader with phase := .none, config := some c }
    asm := { s.asm with rows := contributionTable c }
    eval := Evaluator.atHandover c s.fault.line
    field := s.field.startChecks c
    capture := s.capture.atHandover c.capture.autoArm }

theorem atHandover_ring (c : CaptureUnit) (autoArm : Bool) : (c.atHandover autoArm).ring = c.ring := by
  unfold CaptureUnit.atHandover
  split <;> rfl

theorem configured_moved {s : State} (waits : s.loader.phase ≠ .none) (c : StationSetup) :
    Moved s (s.configured c) := by
  have eq : (s.configured c).watched =
      { s.watched with phase := .none, points := (contributionTable c).map (·.point) } := by
    simp [State.watched, State.configured, atHandover_ring]
  unfold Moved
  rw [eq]
  exact .tail (.single (.transfers .none waits)) (.sets id id id fun _ => contributionTable_ascending c)

theorem handover_moved {s : State} (awake : s.loader.held = false) (waits : s.loader.phase ≠ .none)
    (c : StationSetup) : Moved s (s.handover c) := by
  have listens : Moved (s.configured c) ((s.configured c).enterListen 0) :=
    enterListen_moved (Nat.zero_le _) (.handsOver awake rfl)
  exact (configured_moved waits c).trans (listens.trans (startInputs_moved _))

theorem takeTransfer_moved {s : State} (awake : s.loader.held = false) (answer : Option (List Byte)) :
    Moved s (s.takeTransfer answer) := by
  unfold State.takeTransfer
  split
  next => exact .refl s
  next header =>
    have waits : s.loader.phase ≠ .none := by simp [header]
    split
    · unfold State.takeHeader
      split
      · exact .move (.transfers _ waits) rfl
      · exact loadFails_moved awake waits _
    · exact loadFails_moved awake waits _
  next h body =>
    have waits : s.loader.phase ≠ .none := by simp [body]
    split
    · unfold State.takeBlock
      split
      · exact handover_moved awake waits _
      · exact loadFails_moved awake waits _
    · exact loadFails_moved awake waits _

end Sys2Proof.Machine

/-! SUPPORT. What every command and every step moves of the watched fields, and the invariants that follow (R46, R48,
R56 to R58, R72, R94 to R96, R106, R157, R161, R176). -/

namespace Sys2Proof.Machine

/-! ### Expiries and field lines (R13, R46, R85, R86, R146, R153) -/

theorem addLoss_moved (s : State) (x : Station) : Moved s (s.addLoss x) := by
  unfold State.addLoss
  split
  · exact .refl s
  · exact .move (.sets id (insertStation_ascending x) id id) rfl

theorem silenceExceeded_moved (s : State) (x : Station) : Moved s (s.silenceExceeded x) := by
  refine Moved.trans ?_ (checkIsolation_moved _ _)
  exact (addLoss_moved _ x).after rfl

theorem putInput_moved (s : State) (n : Nat) (i j : FieldInput) : Moved s (s.putInput n i j) := by
  unfold State.putInput
  dsimp only
  split <;> exact .of_eq rfl

theorem inputLine_moved (s : State) (n : Nat) (level : Bool) : Moved s (s.inputLine n level) := by
  unfold State.inputLine
  split
  · split <;> exact putInput_moved _ _ _ _
  · exact .refl s

theorem filterExpires_moved (s : State) (n : Nat) : Moved s (s.filterExpires n) := by
  unfold State.filterExpires
  split
  · exact putInput_moved _ _ _ _
  · exact .refl s

theorem latchedIndication_moved (s : State) (on : Bool) : Moved s (s.latchedIndication on) :=
  (faultLineMoved_moved _ _).after rfl

theorem latchOutput_moved (s : State) (n : Nat) : Moved s (s.latchOutput n) := by
  unfold State.latchOutput
  dsimp only
  split
  · exact ((report_moved _ _ _).trans (latchedIndication_moved _ _)).after rfl
  · exact (report_moved _ _ _).after rfl

/-! ### Commands -/

/-- A command is an effect on the blocks, and then the taking of what they have handed on (R127). -/
def Effect (s : State) (o : Answer) : Prop := ∃ u, o = u.answer ∧ Moved s u

theorem Effect.of {s u : State} (h : Moved s u) : Effect s u.answer := ⟨u, rfl, h⟩

theorem Effect.ite {c : Prop} [Decidable c] {s u : State} (h : c → Moved s u) :
    Effect s (if c then u else s).answer := by
  split
  · exact .of (h ‹c›)
  · exact .of (.refl s)

theorem Effect.moved {s t : State} {o : Answer} (h : Effect s o) (eq : o = .next t) : Moved s t := by
  obtain ⟨u, rfl, moved⟩ := h
  cases eq
  exact moved.trans (finish_moved u)

/-- What every command moves. -/
theorem exec_effect (c : Instr) (s : State) : Effect s (exec c s) := by
  cases c with
  | powerOnReset => exact .of (resetBlocks_moved s)
  | resetLineAssertion => exact .of (resetBlocks_moved s)
  | resetRelease straps =>
    exact .ite fun held =>
      (readStraps_moved (s := { s with loader := { s.loader with straps := straps } }) held).after rfl
  | configurationRead answer =>
    show Effect s (execConfigurationRead answer s)
    unfold execConfigurationRead
    split
    · exact .of (.refl s)
    · rename_i awake
      exact .of (takeTransfer_moved (Bool.eq_false_iff.mpr awake) answer)
  | idleReached =>
    show Effect s (execIdleReached s)
    unfold execIdleReached
    split
    · exact .of (.refl s)
    · exact .of (.ofCommit { idle := .inl le_rfl })
  | frameStart => exact .of (startFrame_moved s)
  | arbitrationLost => exact .ite fun _ => settleFailed_moved s
  | abort => exact .ite fun flies => abortFlight_moved (Option.isSome_iff_ne_none.mp flies)
  | frameIncomplete =>
    show Effect s (execFrameIncomplete s)
    unfold execFrameIncomplete
    split
    · exact .of (.refl s)
    · exact .of ((Moved.ofCommit {}).trans (noteActivity_moved s.frameStops))
  | veto cells => exact .of (vetoSlot_moved s cells)
  | listenPeriodExpiry =>
    exact .ite fun due => endListening_moved (of_decide_eq_true (Bool.and_eq_true_iff.mp due).1)
  | answerTimerExpiry =>
    exact .ite fun due => answerExpires_moved (of_decide_eq_true (Bool.and_eq_true_iff.mp due).1)
  | partGapExpiry =>
    exact .ite fun due => nextCandidate_moved (of_decide_eq_true (Bool.and_eq_true_iff.mp due).1)
  | rejoinHoldoffExpiry =>
    exact .ite fun due => returnToListen_moved (.inr (of_decide_eq_true (Bool.and_eq_true_iff.mp due).1))
  | straySetExpiry x => exact .ite fun _ => .of_eq rfl
  | silenceLimit x => exact .ite fun _ => silenceExceeded_moved s x
  | entryDeadline x => exact .ite fun _ => (addLoss_moved _ x).after rfl
  | rollcallDue => exact .ite fun _ => .of_eq rfl
  | pacingGap => exact .ite fun _ => endPacing_moved s
  | pulseWindowExpiry p => exact .ite fun _ => .of_eq rfl
  | unitExpiry n => exact .of (.of_eq rfl)
  | inputLineChange n level => exact .of (inputLine_moved s _ level)
  | filterRunExpiry n => exact .of (filterExpires_moved s _)
  | readbackLineChange n level => exact .of (.of_eq rfl)
  | settleTimerExpiry n => exact .of (.of_eq rfl)
  | mismatchTimerExpiry n =>
    show Effect s (execMismatchTimerExpiry n s)
    unfold execMismatchTimerExpiry
    split
    · exact .ite fun _ => latchOutput_moved s _
    · exact .of (.refl s)
  | activity a =>
    show Effect s (execActivity a s)
    unfold execActivity
    split
    · exact .of (.refl s)
    · exact .of (activity_moved s a)
  | _ => exact .of (commitFrame_moved s _)

/-! ### The millisecond (R46, log 1) -/

theorem queueInAnyOrder_moved : ∀ (n : Nat) (due : List Instr) (s : State), Moved s (queueInAnyOrder n due s)
  | 0, _, s => .refl s
  | n + 1, due, s => by
    have drawn : Moved s (s.draw due.length).2 := by
      unfold State.draw
      split <;> exact .of_eq rfl
    unfold queueInAnyOrder
    dsimp only
    split
    · exact drawn.trans ((queueInAnyOrder_moved n _ _).after rfl)
    · exact drawn

theorem millisecond_moved (s : State) : Moved s s.millisecond := by
  have clocks : Moved s s.advanceClocks := .move (.commit (.pacing _ _ _)) rfl
  unfold State.millisecond
  split
  · exact .refl s
  · exact clocks.trans (queueInAnyOrder_moved _ _ _)

/-- What a step moves. -/
theorem step_moved {s t : State} (h : step s = .next t) : Moved s t := by
  unfold step at h
  split at h
  · exact ((exec_effect _ _).moved h).after rfl
  · cases h
    exact millisecond_moved s

/-! ### The invariants of every step -/

/-- What every kind of event keeps, a step keeps. -/
theorem Moves.keeps_all {P : Watched → Prop} (keeps : ∀ {w v}, Moves w v → P w → P v) {w v : Watched}
    (h : Relation.ReflTransGen Moves w v) : P w → P v := by
  induction h with
  | refl => exact id
  | tail _ last ih => exact keeps last ∘ ih

theorem countsInRange_iff {s : State} : CountsInRange s ↔ s.watched.CountsFit :=
  ⟨fun ⟨idle, vetoes, failures, attempts⟩ => ⟨idle, vetoes, failures, attempts⟩,
    fun ⟨idle, vetoes, failures, attempts⟩ => ⟨idle, vetoes, failures, attempts⟩⟩

theorem recordsInRange_iff {s : State} : RecordsInRange s ↔ s.watched.RecordsFit :=
  ⟨fun ⟨counts, ring⟩ => ⟨counts, ring⟩, fun ⟨counts, ring⟩ => ⟨counts, ring⟩⟩

theorem setsAscend_iff {s : State} : SetsAscend s ↔ s.watched.SetsFit :=
  ⟨fun ⟨lossSet, busySet, candidates, rows⟩ => ⟨lossSet, busySet, candidates, rows⟩,
    fun ⟨lossSet, busySet, candidates, rows⟩ => ⟨lossSet, busySet, candidates, rows⟩⟩

theorem lifecycleFits_iff {s : State} : LifecycleFits s ↔ s.watched.LifecycleFits :=
  ⟨fun ⟨standing, flight, loader, held, stopped⟩ => ⟨standing, flight, loader, held, stopped⟩,
    fun ⟨standing, flight, phase, held, stopped⟩ => ⟨standing, flight, phase, held, stopped⟩⟩

/-- Settles O56, event by event of a step. -/
theorem countsStayInRange : Obligations.CountsStayInRange := by
  intro s t h
  have moved := step_moved h
  rw [countsInRange_iff, countsInRange_iff, recordsInRange_iff, recordsInRange_iff, setsAscend_iff, setsAscend_iff]
  exact ⟨Moves.keeps_all Moves.countsFit moved, Moves.keeps_all Moves.recordsFit moved,
    Moves.keeps_all Moves.setsFit moved⟩

/-- Settles O57, event by event of a step. -/
theorem standingFitsTheLifecycle : Obligations.StandingFitsTheLifecycle := by
  intro s t fits h
  exact lifecycleFits_iff.mpr (Moves.keeps_all Moves.lifecycleFits (step_moved h) (lifecycleFits_iff.mp fits))

/-- R176: the field lines of a reset station are those that a reset leaves. -/
theorem fieldReset_afterReset : FieldUnit.reset.afterReset = FieldUnit.reset := by
  simp [FieldUnit.afterReset, FieldUnit.reset, FieldInput.resetWith, FieldOutput.resetWith]

/-- Settles O60, block by block of the reset state. -/
theorem resetMeetsTheInvariants : Obligations.ResetMeetsTheInvariants := by
  have held : HeldInReset State.reset := by
    show { State.reset with field := FieldUnit.reset.afterReset } = State.reset
    rw [fieldReset_afterReset]
    rfl
  refine ⟨⟨Nat.zero_le _, Nat.zero_le _, Nat.zero_le _, Nat.zero_le _⟩,
    ⟨rfl, fun flies => absurd rfl flies, fun _ => rfl, fun _ => rfl, fun _ => rfl⟩,
    ⟨⟨fun _ => Nat.zero_le _, fun _ => Nat.zero_le _, fun _ => Nat.zero_le _⟩, fun e mem => by cases mem⟩,
    ⟨zeroCounts_fit, Nat.zero_le _⟩, ⟨.nil, .nil, .nil, .nil⟩, held, rfl, rfl⟩

end Sys2Proof.Machine

/-! SUPPORT. The expiries of the link timers (R46, R60, R73, R96, R103, R104, R111, R114). -/

namespace Sys2Proof.Machine

/-! ### Commands with a condition -/

section
variable {c : Prop} [Decidable c] {s u : State}

theorem settles_of_acts (acts : c) : SettlesTo (if c then u else s).answer u := by
  rw [if_pos acts]
  exact answer_settles u

theorem settles_of_stale (stale : ¬ c) : SettlesTo (if c then u else s).answer s := by
  rw [if_neg stale]
  exact answer_settles s

end

/-- An expiry that needs lifecycle `b` is due where the timer stands at its limit in that lifecycle. -/
theorem due_iff {a b : Lifecycle} {timer : Option Nat} {limit : Nat} :
    (decide (a = b) && reached timer limit) = true ↔ a = b ∧ HasReached timer limit := by
  rw [Bool.and_eq_true, decide_eq_true_eq, reached_iff]
  rfl

theorem not_due {a b : Lifecycle} {timer : Option Nat} {limit : Nat} (h : a ≠ b ∨ ¬ HasReached timer limit) :
    ¬ (decide (a = b) && reached timer limit) = true := fun due =>
  h.elim (· (due_iff.mp due).1) (· (due_iff.mp due).2)

/-- Settles O8, expiry by expiry. -/
theorem linkTimersAct : Obligations.LinkTimersAct := by
  intro s x p
  refine ⟨fun awake => settles_of_stale (by simp [awake]), fun held => settles_of_acts held,
    fun due => settles_of_acts (reached_iff.mpr due), fun early => settles_of_stale (mt reached_iff.mp early),
    fun life due => settles_of_acts (due_iff.mpr ⟨life, due⟩), fun h => settles_of_stale (not_due h),
    fun due => settles_of_acts (reached_iff.mpr due), fun early => settles_of_stale (mt reached_iff.mp early),
    fun h => settles_of_stale (not_due h), fun h => settles_of_stale (not_due h),
    fun h => settles_of_stale (not_due h), fun h => settles_of_stale (not_due h)⟩

end Sys2Proof.Machine

/-! SUPPORT. The start of the due frame, and what an UPDATE carries and marks (R44, R61, R62, R65, R66, R71, R73). -/

namespace Sys2Proof.Machine

/-! ### A chance to send (R62) -/

theorem mayStart_iff {s : State} : s.mayStart = true ↔ MayStart s := by
  have onMedium : s.lifecycle.onMedium = true ↔
      s.lifecycle = .listen ∨ s.lifecycle = .joining ∨ s.lifecycle = .active := by
    cases s.lifecycle <;> simp [Lifecycle.onMedium]
  have idle : s.commit.idleReached = true ↔ 10 ≤ s.commit.idle := decide_eq_true_iff
  simp only [State.mayStart, MayStart, Bool.and_eq_true, Option.isNone_iff_eq_none, onMedium, idle, and_assoc]

theorem startFrame_due {s : State} {f : Frame} {origin : Origin} (may : MayStart s)
    (due : dueFrame? s = some (f, origin)) : s.startFrame = s.launch f origin := by
  rw [State.startFrame, if_pos (mayStart_iff.mpr may), due]

theorem startFrame_stays {s : State} (h : ¬ MayStart s ∨ dueFrame? s = none) : s.startFrame = s := by
  unfold State.startFrame
  split
  · rename_i may
    rw [h.resolve_left (not_not.mpr (mayStart_iff.mp may))]
  · rfl

theorem drivesStart_stays {s : State} (h : ¬ MayStart s ∨ dueFrame? s = none) : s.drivesStart = [] := by
  refine if_neg fun drives => ?_
  obtain ⟨may, due⟩ := Bool.and_eq_true_iff.mp drives
  rw [h.resolve_left (not_not.mpr (mayStart_iff.mp may))] at due
  cases due

/-- R71, R75: the frame due under the claim of the UPDATE. -/
theorem dueFrame_update {s : State} {f : Frame} (due : dueFrame? s = some (f, .update)) :
    f = .update s.number (updateItems s.asm s.setup.faultPoint) := by
  have response : ∀ g, responseFrame? s ≠ some (g, .update) := fun g h => by
    unfold responseFrame? at h
    repeat' split at h
    all_goals simp at h
  unfold dueFrame? at due
  split at due
  · split at due <;> simp at due
  · simp at due
  · obtain ⟨c, mem, eq⟩ := List.exists_of_findSome?_eq_some due
    simp only [id] at eq
    subst eq
    simp only [activeClaims, List.mem_cons, List.not_mem_nil, or_false] at mem
    rcases mem with h | h | h | h | h | h | h
    · simp [eq_comm] at h
    · simp [eq_comm] at h
    · simp [eq_comm] at h
    · simp [eq_comm] at h
    · split at h <;> simp_all
    · split at h <;> simp at h
    · exact absurd h.symm (response f)
  all_goals cases due

/-! ### What an UPDATE carries (R65, R66, R71) -/

/-- A member of a list without repeats is among the first `n` of those chosen where it is chosen, and fewer than `n` of
those before it are. -/
theorem mem_take_filter {α : Type} {p : α → Bool} {x : α} : ∀ {l : List α} {i n : Nat}, l.Nodup → l[i]? = some x →
    (x ∈ (l.filter p).take n ↔ p x = true ∧ ((l.take i).filter p).length < n)
  | [], _, _, _, at_i => by simp at at_i
  | y :: l, 0, n, nodup, at_i => by
    obtain rfl : y = x := by simpa using at_i
    have new : y ∉ l := (List.nodup_cons.mp nodup).1
    cases chosen : p y
    · have absent : y ∉ ((y :: l).filter p).take n := fun mem => by
        simp [List.mem_filter.mp (List.mem_of_mem_take mem)] at chosen
      simp [absent]
    · cases n <;> simp [chosen]
  | y :: l, i + 1, n, nodup, at_i => by
    have at_i' : l[i]? = some x := by simpa using at_i
    obtain ⟨new, rest⟩ := List.nodup_cons.mp nodup
    have differ : x ≠ y := fun same => new (same ▸ List.mem_of_getElem? at_i')
    cases chosen : p y
    · simpa [chosen] using mem_take_filter rest at_i'
    · cases n with
      | zero => simp
      | succ n => simpa [chosen, differ] using mem_take_filter rest at_i'

theorem markFlying_length : ∀ (n : Nat) (l : List RequestEntry), (markFlying n l).length = l.length
  | 0, l => by simp [markFlying]
  | n + 1, [] => rfl
  | n + 1, e :: l => by
    unfold markFlying
    split <;> simp [markFlying_length]

/-- The entries that the request list has in waiting (R67). -/
def askedOf (l : List RequestEntry) : List RequestEntry := l.filter fun e => !e.flying

/-- R71: the oldest `n` pending entries are marked. -/
theorem markFlying_getElem? {e : RequestEntry} : ∀ {n i : Nat} {l : List RequestEntry}, l[i]? = some e →
    (markFlying n l)[i]? =
      some (if e.flying = false ∧ (askedOf (l.take i)).length < n then { e with flying := true } else e)
  | 0, i, l, at_i => by simp [markFlying, at_i]
  | n + 1, i, [], at_i => by simp at at_i
  | n + 1, 0, x :: l, at_i => by
    obtain rfl : x = e := by simpa using at_i
    cases flying : x.flying <;> simp [markFlying, flying, askedOf]
  | n + 1, i + 1, x :: l, at_i => by
    have at_i' : l[i]? = some e := by simpa using at_i
    unfold markFlying
    cases flying : x.flying
    · rw [if_neg Bool.false_ne_true, List.getElem?_cons_succ, markFlying_getElem? at_i']
      exact congrArg some (if_congr (and_congr_right fun _ => by simp [askedOf, flying]) rfl rfl)
    · rw [if_pos rfl, List.getElem?_cons_succ, markFlying_getElem? at_i']
      exact congrArg some (if_congr (and_congr_right fun _ => by simp [askedOf, flying]) rfl rfl)

/-- A pending entry is one of those in waiting, and those before it are others. -/
theorem askedOf_before {e : RequestEntry} {l : List RequestEntry} {i : Nat} (at_i : l[i]? = some e)
    (pending : e.flying = false) : (askedOf (l.take i)).length < (askedOf l).length := by
  have split : askedOf l = askedOf (l.take i) ++ askedOf (l.drop i) := by
    rw [askedOf, askedOf, askedOf, ← List.filter_append, List.take_append_drop]
  have mem : e ∈ askedOf (l.drop i) := by
    refine List.mem_filter.mpr ⟨List.mem_of_getElem? (i := 0) ?_, by simp [pending]⟩
    simpa using at_i
  rw [split, List.length_append]
  exact Nat.lt_add_of_pos_right (List.length_pos_of_mem mem)

section
variable (a : Assembler) (faultPoint : Option Point)

theorem takenRequests_length : (takenRequests a.requests).length = min 12 (askedOf a.requests).length := by
  simp [takenRequests, askedOf, Config.maxItems]

theorem startUpdate_requests {i : Nat} {e : RequestEntry} (at_i : a.requests[i]? = some e) :
    (a.startUpdate faultPoint).requests[i]? =
      some (if e.flying = false ∧ (askedOf (a.requests.take i)).length < 12 then { e with flying := true } else e) := by
  have marked := markFlying_getElem? (n := (takenRequests a.requests).length) at_i
  rw [show (a.startUpdate faultPoint).requests = markFlying (takenRequests a.requests).length a.requests from rfl,
    marked, takenRequests_length]
  refine congrArg some (if_congr (and_congr_right fun pending => ?_) rfl rfl)
  have := askedOf_before at_i pending
  omega

/-- R66: whether a row's LEVEL item is due. -/
def rowDue (r : ContributionRow) : Bool := r.due faultPoint a.faultPart

theorem startUpdate_rows (ascending : (a.rows.map (·.point)).Pairwise (· < ·)) {i : Nat} {r : ContributionRow}
    (at_i : a.rows[i]? = some r) : (a.startUpdate faultPoint).rows[i]? =
      some (if rowDue a faultPoint r = true ∧
          (askedOf a.requests).length + ((a.rows.take i).filter (rowDue a faultPoint)).length < 12
        then { r with flying := some (r.desired faultPoint a.faultPart) } else r) := by
  have distinct : (a.rows.map (·.point)).Nodup := ascending.imp ne_of_lt
  have taken : r.point ∈ (takenRows a faultPoint (12 - (takenRequests a.requests).length)).map (·.point) ↔
      r ∈ takenRows a faultPoint (12 - (takenRequests a.requests).length) := by
    refine ⟨fun mem => ?_, fun mem => List.mem_map_of_mem mem⟩
    obtain ⟨q, mem, same⟩ := List.mem_map.mp mem
    have inRows : q ∈ a.rows := (List.mem_filter.mp (List.mem_of_mem_take mem)).1
    rwa [← List.inj_on_of_nodup_map distinct inRows (List.mem_of_getElem? at_i) same]
  have counted := mem_take_filter (p := rowDue a faultPoint) (n := 12 - (takenRequests a.requests).length)
    distinct.of_map at_i
  have room : ∀ k, k < 12 - (takenRequests a.requests).length ↔ (askedOf a.requests).length + k < 12 := fun k => by
    rw [takenRequests_length]
    omega
  rw [room] at counted
  simp only [Assembler.startUpdate, List.getElem?_map, at_i, Option.map_some, List.contains_iff_mem]
  exact congrArg some (if_congr (taken.trans counted) rfl rfl)

/-- R71: the pending requests, oldest first, then the due LEVEL items, and no more than twelve of them. -/
theorem updateItems_eq : updateItems a faultPoint =
    ((askedOf a.requests).map RequestEntry.item ++ (a.rows.filter (rowDue a faultPoint)).map fun r =>
      Item.level r.point (r.desired faultPoint a.faultPart)).take 12 := by
  have room : 12 - min 12 (askedOf a.requests).length = 12 - (askedOf a.requests).length := by omega
  rw [List.take_append, ← List.map_take, ← List.map_take, List.length_map, ← room, ← takenRequests_length]
  rfl

end

/-- Settles O9: the launch, the chance that is none, and then what an UPDATE carries and marks. -/
theorem frameStartLaunchesTheDueFrame : Obligations.FrameStartLaunchesTheDueFrame := by
  refine ⟨fun s => ⟨fun f origin may due => ⟨?_, ?_⟩, fun h => ⟨drivesStart_stays h, ?_⟩, fun f => dueFrame_update⟩,
    fun a faultPoint ascending => ?_⟩
  · exact if_pos (Bool.and_eq_true_iff.mpr ⟨mayStart_iff.mpr may, by rw [due]; rfl⟩)
  · refine ⟨(s.launch f origin).freeIndex, ?_⟩
    show SettlesTo s.startFrame.answer _
    rw [startFrame_due may due]
    exact answer_settles (s.launch f origin)
  · show SettlesTo s.startFrame.answer s
    rw [startFrame_stays h]
    exact answer_settles s
  · have rows := fun i r => startUpdate_rows a faultPoint ascending (i := i) (r := r)
    have items := updateItems_eq a faultPoint
    have due : ∀ r, rowDue a faultPoint r = (decide (r.flying = none) &&
        decide ((r.terms || (a.faultPart && decide (faultPoint = some r.point))) ≠ r.link)) := fun r => by
      rw [rowDue, ContributionRow.due, Bool.and_comm]
      cases r.flying <;> rfl
    rw [funext due] at rows items
    exact ⟨fun r => rfl, items, rfl, markFlying_length _ _, List.length_map ..,
      fun i e => startUpdate_requests a faultPoint, rows⟩

end Sys2Proof.Machine

/-! SUPPORT. Levels on the medium: how a cell is read by its shape, what a level makes of the record, and what it means
to the sender (R44 to R52, R55, R58 to R60). -/

namespace Sys2Proof.Machine

/-! ### Shapes (R44, R45) -/

section
variable {k : Nat}

theorem startBroken_iff {t : Nat} {w : Waveform} :
    startBroken t w = true ↔ cellBroken t w = true ∨ w.first.length < eighths t 5 := by
  simp [startBroken]

/-- R44: a pulse of a length within the clean ranges, with no second edge, is read by its length. -/
theorem readCell_lone (pos : 0 < k) {edge n : Nat} {b : Bool} (length : n = if b then 2 * k else 6 * k) :
    readCell (8 * k) ⟨⟨edge, n⟩, []⟩ = .bit b := by
  have whole : cellBroken (8 * k) ⟨⟨edge, n⟩, []⟩ = false := by
    rw [Bool.eq_false_iff, ne_eq, cellBroken_iff]
    simp only [eighths_eq, List.not_mem_nil, false_and, exists_false, or_false]
    cases b <;> simp at length <;> omega
  rw [readCell_whole pos whole]
  simp only [eighths_eq, Cell.bit.injEq]
  cases b <;> simp at length ⊢ <;> omega

theorem drivenBit_length (k : Nat) (b : Bool) : (drivenBit (8 * k) b).length = if b then 2 * k else 6 * k := by
  cases b <;> simp [drivenBit, eighths_eq]

/-- R44, R45: the reading of every level, at a cell time with whole eighths. -/
theorem cellsAreReadByShape (pos : 0 < k) : CellsAreReadByShape (8 * k) := by
  refine ⟨fun w => ?_, fun edge b c => ⟨?_, ?_, ?_⟩⟩
  · dsimp only
    rw [← cellBroken_iff]
    refine ⟨readCell_broken, fun whole short => ?_, fun whole long => ?_, fun bad => ?_, fun whole long => ?_⟩
    · rw [readCell_whole pos (Bool.eq_false_iff.mpr whole)]
      simp only [eighths_eq] at short ⊢
      simp; omega
    · rw [readCell_whole pos (Bool.eq_false_iff.mpr whole)]
      simp only [eighths_eq] at long ⊢
      simp; omega
    · exact startRecord_broken (startBroken_iff.mpr bad)
    · exact startRecord_whole (Bool.eq_false_iff.mpr fun bad =>
        (startBroken_iff.mp bad).elim whole (Nat.not_lt.mpr long))
  · exact readCell_lone pos (drivenBit_length k b)
  · refine readCell_lone pos ?_
    rw [drivenBit_length, drivenBit_length]
    cases b <;> cases c <;> simp
  · refine startRecord_whole ?_
    rw [Bool.eq_false_iff, ne_eq, startBroken_iff, cellBroken_iff]
    simp [drivenStart, eighths_eq]
    omega

end

/-! ### A level at the commit unit (R46 to R49, R55, R60) -/

/-- R46, R47, R55: the record and the listener's mark once a level has been seen, before its sender acts. -/
def State.seen (s : State) (a : Activity) : State :=
  State.noteActivity { s with commit := s.commit.observe s.cellTime s.lifecycle.onMedium a }

section
variable {s : State} {a : Activity} {w : Waveform} {cells : List Cell}

theorem exec_activity (awake : s.loader.held = false) :
    exec (.activity a) s = ((s.seen a).senderActs (s.commit.standingAt? s.cellTime a)).answer := by
  show execActivity a s = _
  rw [execActivity, if_neg (by simp [awake])]
  rfl

theorem seen_eq (s : State) (a : Activity) : s.seen a = { s with
    commit := s.commit.observe s.cellTime s.lifecycle.onMedium a
    join := { s.join with
      activity := s.join.activity || (decide (s.lifecycle = .listen) && s.join.listenTimer.isSome) } } :=
  noteActivity_eq _

theorem not_idleReached {c : CommitUnit} (busy : c.idle < 10) : c.idleReached = false :=
  decide_eq_false (Nat.not_le.mpr busy)

theorem idleReached {c : CommitUnit} (idle : 10 ≤ c.idle) : c.idleReached = true := decide_eq_true idle

/-- R46, R47, R60: a level after idle opens a start cell. -/
theorem seen_opens (idle : 10 ≤ s.commit.idle) (onMedium : s.lifecycle.onMedium = true) : s.seen a = { s with
    commit := { s.commit with
      idle := 0, pacing := none, reception := some (openedRecord s.cellTime a), stopped := false }
    join := { s.join with
      activity := s.join.activity || (decide (s.lifecycle = .listen) && s.join.listenTimer.isSome) } } := by
  rw [seen_eq]
  unfold CommitUnit.observe
  rw [if_pos (idleReached idle), if_pos onMedium]

/-- R47, R48: a level before idle is the next of the record. -/
theorem seen_cell (busy : s.commit.idle < 10) (record : s.commit.reception = some cells) :
    s.seen (.cell w) = withRecord s (takeCell s.cellTime cells w) := by
  have observed : s.commit.observe s.cellTime s.lifecycle.onMedium (.cell w) =
      (withRecord s (takeCell s.cellTime cells w)).commit := by
    unfold CommitUnit.observe
    rw [if_neg (by simp [not_idleReached busy]), record]
    rfl
  rw [seen_eq, observed]
  rfl

/-- R46, R55: a level outside any record restarts the idle count alone. -/
theorem seen_outside
    (outside : 10 ≤ s.commit.idle ∧ s.lifecycle.onMedium = false ∨
      s.commit.idle < 10 ∧ (a = .startCell ∨ a = .level ∨ s.commit.reception = none)) :
    s.seen a = { s with
      commit := { s.commit with idle := 0 }
      join := { s.join with
        activity := s.join.activity || (decide (s.lifecycle = .listen) && s.join.listenTimer.isSome) } } := by
  rw [seen_eq]
  unfold CommitUnit.observe
  rcases outside with ⟨idle, off⟩ | ⟨busy, unrecorded⟩
  · rw [if_pos (idleReached idle), if_neg (by simp [off])]
  · rw [if_neg (by simp [not_idleReached busy])]
    split
    · rename_i cells record
      rcases unrecorded with h | h | h
      · cases h
      · cases h
      · simp [h] at record
    · rfl

/-- R49: a level means nothing to a station that sends no frame, opens one, or has no record of it. -/
theorem standingAt_none (t : Nat)
    (none : s.commit.flight = none ∨ 10 ≤ s.commit.idle ∨ a = .startCell ∨ a = .level ∨ s.commit.reception = none) :
    s.commit.standingAt? t a = .none := by
  unfold CommitUnit.standingAt?
  split
  · rename_i fl cells flies record
    rcases none with h | h | h | h | h
    · simp [h] at flies
    · exact if_pos (idleReached h)
    · cases h
    · cases h
    · simp [h] at record
  · rfl

/-- What is seen, where it means nothing to this station as a sender. -/
theorem activity_settles (awake : s.loader.held = false)
    (none : s.commit.flight = none ∨ 10 ≤ s.commit.idle ∨ a = .startCell ∨ a = .level ∨ s.commit.reception = none) :
    SettlesTo (exec (.activity a) s) (s.seen a) := by
  rw [exec_activity awake, standingAt_none _ none]
  exact answer_settles _

end

/-- R48: a frame that stops. -/
theorem exec_frameIncomplete {s : State} (awake : s.loader.held = false) :
    SettlesTo (exec .frameIncomplete s) { s with
      commit := { s.commit with idle := 0, reception := none, stopped := true }
      join := { s.join with
        activity := s.join.activity || (decide (s.lifecycle = .listen) && s.join.listenTimer.isSome) } } := by
  show SettlesTo (execFrameIncomplete s) _
  rw [execFrameIncomplete, if_neg (by simp [awake]), noteActivity_eq]
  exact answer_settles _

/-- Settles O14: the shapes, then a level by the idle count and the record. -/
theorem mediumIsFollowed : Obligations.MediumIsFollowed := by
  refine ⟨fun rate => ?_, fun s a awake => ⟨exec_frameIncomplete awake, fun idle onMedium => ?_,
    fun w cells busy cell record grounded => ?_, fun busy outside => ?_, fun idle off => ?_⟩⟩
  · obtain ⟨k, eq, pos⟩ := cellTime_eighths rate
    rw [eq]
    exact cellsAreReadByShape pos
  · have settles := activity_settles (a := a) awake (.inr (.inl idle))
    rw [seen_opens idle onMedium] at settles
    cases a <;> exact settles
  · subst cell
    have settles := activity_settles (a := .cell w) awake (.inl grounded)
    rw [seen_cell busy record, takeCell_spec] at settles
    exact settles
  · have settles := activity_settles (a := a) awake (.inr (.inr outside))
    rwa [seen_outside (.inr ⟨busy, outside⟩)] at settles
  · have settles := activity_settles (a := a) awake (.inr (.inl idle))
    rwa [seen_outside (.inl ⟨idle, off⟩)] at settles

end Sys2Proof.Machine

/-! SUPPORT. Failed sending, vetoed slots and stations outside the link (R44, R45, R48 to R53, R56 to R59). -/

namespace Sys2Proof.Machine

/-! ### Failed outcomes (R50, R51, R58) -/

section
variable {s u : State} {c : Instr}

/-- R58: a send failure that is not the eighth in a row is counted. -/
theorem abortFlight_counts (few : s.commit.failures < 7) : s.abortFlight =
    { failedOutcome s with commit :=
      { s.commit with flight := none, failures := s.commit.failures + 1 } } := if_pos few

/-- R58: the eighth in a row detaches the station. -/
theorem abortFlight_detaches (exec_eq : exec c s = u.abortFlight.answer) (eighth : u.commit.failures = 7)
    (same : SameStation s u) (closed : u.service.restartOpen = false) (fault : u.fault = s.fault)
    (life : u.lifecycle = s.lifecycle) (quiet : s.Quiet → u.Quiet) : DetachesWith c s .sendRetries := by
  have spent : ¬ u.settleFailed.commit.failures < 7 := by simp [eighth]
  have like : SameStation u u.settleFailed := ⟨rfl, rfl, rfl, rfl, rfl, rowsFailed_points _⟩
  refine detachesWith_of_detach (u := u.settleFailed) ?_ (same.trans like) closed fault life quiet
  rw [exec_eq, State.abortFlight, State.countFailure, if_neg spent]

/-- R51, R58: the sender aborts at a level that it has seen. -/
theorem abortsWith {record : Option (List Cell)} (exec_eq : exec c s = (withRecord s record).abortFlight.answer) :
    AbortsWith c s record := by
  refine ⟨fun few => ?_, fun eighth closed => ?_⟩
  · rw [exec_eq, abortFlight_counts (s := withRecord s record) few]
    exact answer_settles _
  · exact abortFlight_detaches exec_eq eighth ⟨rfl, rfl, rfl, rfl, rfl, rfl⟩ closed rfl rfl id

end

/-! ### The sender's own cells (R44, R45, R49 to R52) -/

section
variable {s : State} {fl : Flight} {cells : List Cell} {w : Waveform}

/-- R49: what a sender sees of its own frame, and what it does at it. -/
theorem exec_ownCell (awake : s.loader.held = false) (busy : s.commit.idle < 10) (flies : s.commit.flight = some fl)
    (record : s.commit.reception = some cells) {taken : Option (List Cell)} {standing : Option SenderStanding}
    (take : takeCell s.cellTime cells w = taken)
    (stands : sentStanding s.cellTime (encodeFrame fl.frame) cells w = standing) :
    exec (.activity (.cell w)) s = ((withRecord s taken).senderActs standing).answer := by
  have standing : s.commit.standingAt? s.cellTime (.cell w) = standing := by
    simp only [CommitUnit.standingAt?, flies, record, not_idleReached busy, stands]
    rfl
  rw [exec_activity awake, seen_cell busy record, take, standing]

/-- A cell time is not 0, so the places of a cell lie apart. -/
theorem eighths_lt (s : State) {m n : Nat} (h : m < n) : eighths s.cellTime m < eighths s.cellTime n := by
  obtain ⟨k, eq, pos⟩ := cellTime_eighths s.setup.bitRate
  rw [State.cellTime, eq, eighths_eq, eighths_eq]
  exact Nat.mul_lt_mul_of_pos_right h pos

section
variable (awake : s.loader.held = false) (busy : s.commit.idle < 10) (flies : s.commit.flight = some fl)
  (record : s.commit.reception = some cells)
include awake busy flies record

/-- R44, R49: the next cell. -/
theorem ownCell_opening {sent : Bool} (next : (encodeFrame fl.frame)[cells.length]? = some sent)
    (low : eighths s.cellTime 7 ≤ w.first.edge) (high : w.first.edge ≤ eighths s.cellTime 9) :
    exec (.activity (.cell w)) s = ((withRecord s (some (cells ++ [readCell s.cellTime w]))).senderActs
      (some (senderStanding cells.length sent (readCell s.cellTime w)))).answer := by
  have later : ¬ (cells = [] ∧ w.first.edge = 0) := by
    have := eighths_lt s (show 0 < 7 by decide)
    omega
  refine exec_ownCell awake busy flies record ?_ ?_
  · rw [takeCell_spec, if_neg later, if_neg (Nat.not_lt.mpr low), if_pos high]
  · rw [sentStanding_spec, if_neg later, if_neg (Nat.not_lt.mpr low), if_pos high, next, Option.map_some]

/-- R48, R51: a level after the moment at which the next opening was due, by ⅜T or later. -/
theorem ownCell_late (late : eighths s.cellTime 9 < w.first.edge) :
    exec (.activity (.cell w)) s =
      ((withRecord s (if w.first.edge ≤ eighths s.cellTime 11 then some cells else none)).senderActs
        ((encodeFrame fl.frame)[cells.length]?.map fun _ => .aborts)).answer := by
  have apart := eighths_lt s (show 7 < 9 by decide)
  have later : ¬ (cells = [] ∧ w.first.edge = 0) := by omega
  refine exec_ownCell awake busy flies record ?_ ?_
  · rw [takeCell_spec, if_neg later, if_neg (by omega), if_neg (Nat.not_le.mpr late)]
  · rw [sentStanding_spec, if_neg later, if_neg (by omega), if_neg (Nat.not_le.mpr late)]

/-- R45, R51: a second edge within a cell. -/
theorem ownCell_within (early : w.first.edge < eighths s.cellTime 7) (inside : cells ≠ [] ∨ w.first.edge ≠ 0) :
    exec (.activity (.cell w)) s = (withRecord s (some (cells.dropLast ++ [.broken]))).abortFlight.answer := by
  have later : ¬ (cells = [] ∧ w.first.edge = 0) := by tauto
  refine exec_ownCell awake busy flies record (standing := some .aborts) ?_ ?_
  · rw [takeCell_spec, if_neg later, if_pos early]
  · rw [sentStanding_spec, if_neg later, if_pos early]

/-- R45, R51: the start cell. -/
theorem ownCell_start (opens : w.first.edge = 0) (first : cells = []) :
    exec (.activity (.cell w)) s = ((withRecord s (some (startRecord s.cellTime w))).senderActs
      (some (if startBroken s.cellTime w then .aborts else .continues))).answer := by
  refine exec_ownCell awake busy flies record ?_ ?_
  · rw [takeCell_spec, if_pos ⟨first, opens⟩]
  · rw [sentStanding_spec, if_pos ⟨first, opens⟩]

end

/-- R52: after the last bit the sender drives its marker. -/
theorem drives_marker (flies : s.commit.flight = some fl) (record : s.commit.reception = some cells)
    (whole : cells.length = (encodeFrame fl.frame).length) (marked : Bool) :
    s.drives marked = [slotMarker s.cellTime] := by
  simp [State.drives, flies, record, whole]

end

/-! ### The two commands (R50, R51) -/

theorem arbitrates_iff {c : CommitUnit} :
    c.arbitrates = true ↔ c.flight ≠ none ∧ (c.reception.getD []).length < 9 := by
  rw [CommitUnit.arbitrates, Bool.and_eq_true, Option.isSome_iff_ne_none, decide_eq_true_eq]

theorem exec_abort {s : State} (flies : s.commit.flight ≠ none) : exec .abort s = s.abortFlight.answer :=
  congrArg State.answer (if_pos (Option.isSome_iff_ne_none.mpr flies))

/-- R49 to R51: a sender that sees `x` where it sent `sent`. -/
theorem senderActs_seen {s : State} {record : Option (List Cell)} {c : Instr} {n : Nat} {sent : Bool} {x : Cell}
    (exec_eq : exec c s = ((withRecord s record).senderActs (some (senderStanding n sent x))).answer) :
    (x = .bit sent → SettlesTo (exec c s) (withRecord s record)) ∧
    (n < 9 ∧ sent = true ∧ x = .bit false → SettlesTo (exec c s) (failedOutcome (withRecord s record))) ∧
    (x ≠ .bit sent → ¬ (n < 9 ∧ sent = true ∧ x = .bit false) → AbortsWith c s record) := by
  refine ⟨fun same => ?_, fun lost => ?_, fun differs kept => ?_⟩
  · rw [exec_eq, senderStanding_continues.mpr same]
    exact answer_settles _
  · rw [exec_eq, senderStanding_lost.mpr lost]
    exact answer_settles _
  · refine abortsWith (exec_eq.trans ?_)
    cases standing : senderStanding n sent x with
    | continues => exact absurd (senderStanding_continues.mp standing) differs
    | lost => exact absurd (senderStanding_lost.mp standing) kept
    | aborts => rfl

/-- Settles O11: the two commands, then the cells of the own frame by their place. -/
theorem failedSendingSettles : Obligations.FailedSendingSettles := by
  intro s
  refine ⟨fun flies early => settles_of_acts (arbitrates_iff.mpr ⟨flies, early⟩),
    fun h => settles_of_stale fun acts => ?_, fun flies few => ?_,
    fun flies eighth closed => abortFlight_detaches (exec_abort flies) eighth (.refl s) closed rfl rfl id,
    fun grounded => settles_of_stale (by simp [grounded]), fun fl cells w awake busy flies record => ?_⟩
  · obtain ⟨flies, early⟩ := arbitrates_iff.mp acts
    exact h.elim flies (Nat.not_le.mpr early)
  · rw [exec_abort flies, abortFlight_counts few]
    exact answer_settles _
  · refine ⟨fun sent next => ⟨fun marked => drives_bit flies record next, fun low high => ?_, fun late => ?_⟩,
      fun whole => ⟨drives_marker flies record whole, fun late slot => ?_⟩, fun early inside => ?_,
      fun opens first broken => ?_, fun opens first whole => ?_⟩
    · exact senderActs_seen (ownCell_opening awake busy flies record next low high)
    · have cell := ownCell_late awake busy flies record late
      rw [next] at cell
      exact abortsWith cell
    · have cell := ownCell_late awake busy flies record late
      rw [if_pos slot, whole, List.getElem?_eq_none le_rfl] at cell
      rw [cell]
      exact answer_settles _
    · exact abortsWith (ownCell_within awake busy flies record early inside)
    · have cell := ownCell_start awake busy flies record opens first
      cases shape : startBroken s.cellTime w
      · exact absurd (startRecord_whole shape) broken
      · rw [startRecord_broken shape, shape] at cell
        exact abortsWith cell
    · have cell := ownCell_start awake busy flies record opens first
      cases shape : startBroken s.cellTime w
      · rw [whole, shape] at cell
        rw [cell]
        exact answer_settles _
      · rw [startRecord_broken shape] at whole
        cases whole

end Sys2Proof.Machine

/-! SUPPORT. The vetoed slot, and the station outside the link (R46 to R48, R52, R53, R56 to R58). -/

namespace Sys2Proof.Machine

/-! ### A veto on the medium (R52, R53) -/

/-- R53: the level at ¾T shows a veto, and no marker. -/
theorem slotVetoed_spec (s : State) :
    let t := s.cellTime
    let marker : Pulse := ⟨t + eighths t 2, eighths t 1⟩
    slotVetoed t ⟨marker, []⟩ = false ∧ slotVetoed t ⟨marker, [⟨t + eighths t 4, eighths t 3⟩]⟩ = true := by
  obtain ⟨k, eq, pos⟩ := cellTime_eighths s.setup.bitRate
  rw [State.cellTime, eq]
  simp only [slotVetoed, dominantAt, eighths_eq]
  constructor <;> simp <;> omega

section
variable {s : State} {r : List Cell} {marked : Bool}

theorem drives_unrecorded (none : s.commit.reception = none) : s.drives marked = [] := by
  cases flies : s.commit.flight <;> simp [State.drives, flies, none]

theorem drives_wellFormed {f : Frame} (silent : s.commit.flight = none) (record : s.commit.reception = some r)
    (ok : judgeCells r = .ok f) : s.drives marked = [] := by
  simp [State.drives, silent, record, ok]

theorem drives_malformed {m : Malformed} (silent : s.commit.flight = none) (record : s.commit.reception = some r)
    (bad : judgeCells r = .error m) :
    s.drives marked = if marked && s.lifecycle.participates then [vetoPulse s.cellTime] else [] := by
  simp [State.drives, silent, record, bad]

/-- R52: a cell that nobody has marked is no slot. -/
theorem drives_unmarked (silent : s.commit.flight = none) : s.drives false = [] := by
  cases record : s.commit.reception with
  | none => exact drives_unrecorded record
  | some r =>
    cases judged : judgeCells r with
    | ok f => exact drives_wellFormed silent record judged
    | error m => exact drives_malformed silent record judged

end

/-! ### The command (R48, R57, R58) -/

section
variable {s : State} {cells : List Waveform}

/-- R58: a vetoed slot is a failure of its sender. -/
theorem exec_veto_sender (awake : s.loader.held = false) (onMedium : s.lifecycle.onMedium = true)
    (flies : s.commit.flight ≠ none) : exec (.veto cells) s = s.frameEnds.abortFlight.answer := by
  show (s.vetoSlot cells).answer = _
  rw [State.vetoSlot, if_neg (by simp [awake]), if_neg (by simp [onMedium]),
    if_pos (Option.isSome_iff_ne_none.mpr flies)]
  rfl

/-- R57: what a vetoed slot does at a participating receiver, by its verdict. -/
def State.slotJudged (s : State) : Option (Except Malformed Frame) → State
  | none => s.slotSpoiled
  | some (.ok _) => { s with commit := s.commit.afterPeer }
  | some (.error _) => s.slotSpoiled.ownVeto

theorem exec_veto_receiver (awake : s.loader.held = false) (part : s.lifecycle.participates = true)
    (silent : s.commit.flight = none) :
    exec (.veto cells) s = (s.slotJudged ((judgedCells s cells).map judgeCells)).answer := by
  have part' : s.slotSpoiled.lifecycle.participates = true := part
  have marked : s.frameEnds.endPacing.noteActivity = s.slotSpoiled := noteActivity_participates part'
  have slot : s.slotRecord? cells = judgedCells s cells := slotRecord_participates part cells
  have cleared : s.slotSpoiled.vetoesCleared = { s with commit := s.commit.afterPeer } := if_pos part'
  show (s.vetoSlot cells).answer = _
  rw [State.vetoSlot, if_neg (by simp [awake]), if_neg (by simp [onMedium_of_participates part]),
    if_neg (by simp [silent])]
  dsimp only
  rw [marked, if_neg (by simp [part']), slot, cleared]
  rcases (judgedCells s cells).map judgeCells with _ | _ | _ <;> rfl

theorem exec_veto_listener (awake : s.loader.held = false) (life : s.lifecycle = .listen)
    (silent : s.commit.flight = none) : exec (.veto cells) s = s.slotSpoiled.noteActivity.answer := by
  have outside : s.slotSpoiled.noteActivity.lifecycle.participates = false := by
    rw [noteActivity_eq]
    exact congrArg Lifecycle.participates life
  show (s.vetoSlot cells).answer = _
  rw [State.vetoSlot, if_neg (by simp [awake]), if_neg (by simp [life, Lifecycle.onMedium]), if_neg (by simp [silent])]
  have marked : s.frameEnds.endPacing.noteActivity = s.slotSpoiled.noteActivity := rfl
  dsimp only
  rw [marked, if_pos (by simp [outside])]

end

/-- Settles O15: what is driven, then the slot at its sender, at a participating receiver and at a listener. -/
theorem vetoedSlotMovesTheCounts : Obligations.VetoedSlotMovesTheCounts := by
  intro s cells awake
  obtain ⟨recessive, dominant⟩ := slotVetoed_spec s
  refine ⟨recessive, dominant, fun r silent record marked => ⟨fun m slot part bad => ?_, fun h => ?_⟩,
    fun none marked => drives_unrecorded none, fun onMedium flies few => ?_,
    fun onMedium flies eighth closed => abortFlight_detaches (u := s.frameEnds)
      (exec_veto_sender awake onMedium flies) eighth ⟨rfl, rfl, rfl, rfl, rfl, rfl⟩ closed rfl rfl id,
    fun r f part silent taken ok => ?_, fun r m part silent few taken bad => ?_,
    fun r m part silent fourth closed taken bad => ?_, fun part silent taken => ?_, fun life silent => ?_⟩
  · rw [drives_malformed silent record bad, slot, part]
    rfl
  · rcases h with rfl | out | ⟨f, ok⟩
    · exact drives_unmarked silent
    · exact drives_outside silent out
    · exact drives_wellFormed silent record ok
  · rw [exec_veto_sender awake onMedium flies, abortFlight_counts (s := s.frameEnds) few]
    exact answer_settles _
  · rw [exec_veto_receiver awake part silent, taken, Option.map_some, ok]
    exact answer_settles _
  · rw [exec_veto_receiver awake part silent, taken, Option.map_some, bad, State.slotJudged, ownVeto_counts few]
    exact answer_settles _
  · have spent : ¬ s.slotSpoiled.commit.vetoes < 3 := by simp [State.slotSpoiled, CommitUnit.listened, fourth]
    refine detachesWith_of_detach (u := s.slotSpoiled) ?_ ⟨rfl, rfl, rfl, rfl, rfl, rfl⟩ closed rfl rfl id
    rw [exec_veto_receiver awake part silent, taken, Option.map_some, bad, State.slotJudged, State.ownVeto,
      if_neg spent]
  · rw [exec_veto_receiver awake part silent, taken]
    exact answer_settles _
  · rw [exec_veto_listener awake life silent, noteActivity_listen (s := s.slotSpoiled) life]
    exact answer_settles _

/-! ### Outside the link (R46, R56) -/

section
variable {s : State} {c : Instr} {a : Activity}

/-- R56: the four lifecycles that take no part are those off the medium. -/
theorem offMedium_iff {l : Lifecycle} :
    l.onMedium = false ↔ l = .start ∨ l = .configFault ∨ l = .detached ∨ l = .linkFault := by
  cases l <;> simp [Lifecycle.onMedium]

theorem not_listen_offMedium (off : s.lifecycle.onMedium = false) : s.lifecycle ≠ .listen := fun listens => by
  simp [listens, Lifecycle.onMedium] at off

/-- R55, R56: only a listener marks activity. -/
theorem noteActivity_offMedium (off : s.lifecycle.onMedium = false) : s.noteActivity = s :=
  if_neg (by simp [not_listen_offMedium off])

theorem participates_offMedium (off : s.lifecycle.onMedium = false) : s.lifecycle.participates = false :=
  Bool.eq_false_iff.mpr fun part => by simp [onMedium_of_participates part] at off

theorem not_mayStart_offMedium (off : s.lifecycle.onMedium = false) : ¬ MayStart s := fun may => by
  have acts := mayStart_iff.mpr may
  simp [State.mayStart, off] at acts

/-- R46, R56: a frame, committed or vetoed, ends what is on the medium. -/
theorem exec_slot_offMedium (awake : s.loader.held = false) (off : s.lifecycle.onMedium = false)
    (closes : (∃ f, c.frame? = some f) ∨ ∃ cells, c = .veto cells) : SettlesTo (exec c s) s.frameEnds := by
  rcases closes with ⟨f, carries⟩ | ⟨cells, rfl⟩
  · rw [exec_frame carries, State.commitFrame, if_neg (by simp [awake]), if_pos (by simp [off])]
    exact answer_settles _
  · show SettlesTo (s.vetoSlot cells).answer _
    rw [State.vetoSlot, if_neg (by simp [awake]), if_pos (by simp [off])]
    exact answer_settles _

/-- R46, R56: a level moves the idle count and the record of the medium. -/
theorem seen_offMedium (off : s.lifecycle.onMedium = false) : ∃ r stop, s.seen a = { s with
    commit := { s.commit with idle := 0, reception := r, stopped := stop } } := by
  obtain ⟨r, stop, observed⟩ : ∃ r stop, s.commit.observe s.cellTime s.lifecycle.onMedium a =
      { s.commit with idle := 0, reception := r, stopped := stop } := by
    unfold CommitUnit.observe
    rw [off, if_neg Bool.false_ne_true]
    repeat' split
    all_goals exact ⟨_, _, rfl⟩
  refine ⟨r, stop, ?_⟩
  rw [State.seen, observed]
  exact noteActivity_offMedium off

end

/-- Settles O16, command by command, at a station that is off the medium and so has no frame in flight. -/
theorem stationOutsideTakesNothing : Obligations.StationOutsideTakesNothing := by
  intro s c a awake fits lifecycle
  have off : s.lifecycle.onMedium = false := offMedium_iff.mpr lifecycle
  have silent : s.commit.flight = none := by
    by_contra flies
    simp [fits.flight flies] at off
  have closed : ¬ MayStart s := not_mayStart_offMedium off
  refine ⟨fun closes => ⟨false, exec_slot_offMedium awake off closes⟩, ?_, drivesStart_stays (.inl closed),
    fun marked => drives_outside silent (participates_offMedium off), ?_, ⟨true, ?_⟩, ?_⟩
  · show SettlesTo s.startFrame.answer s
    rw [startFrame_stays (.inl closed)]
    exact answer_settles s
  · obtain ⟨r, stop, seen⟩ := seen_offMedium (a := a) off
    have settles := activity_settles (a := a) awake (.inl silent)
    rw [seen] at settles
    exact ⟨r, stop, settles⟩
  · have settles := exec_frameIncomplete awake
    rwa [decide_eq_false (not_listen_offMedium off), Bool.false_and, Bool.or_false] at settles
  · exact ⟨s.commit.reception, false, settles_of_stale (by simp [awake])⟩

end Sys2Proof.Machine

/-! SUPPORT. The request list: what a request, an outcome and the start of an UPDATE make of the entries of one point
(R67 to R71). -/

namespace Sys2Proof.Machine

/-! ### The entries of one point (R67, R69) -/

/-- The entries of point `p`, in the order of the list. -/
def entriesOf (l : List RequestEntry) (p : Point) : List RequestEntry := l.filter fun e => e.point = p

theorem mem_entriesOf {l : List RequestEntry} {p : Point} {e : RequestEntry} :
    e ∈ entriesOf l p ↔ e ∈ l ∧ e.point = p := by
  simp [entriesOf]

theorem pendingOf?_entriesOf (l : List RequestEntry) (p : Point) :
    pendingOf? l p = (entriesOf l p).find? fun e => !e.flying := by
  simp [pendingOf?, entriesOf, List.find?_filter]

theorem flyingOf?_entriesOf (l : List RequestEntry) (p : Point) :
    flyingOf? l p = (entriesOf l p).find? fun e => e.flying := by
  simp [flyingOf?, entriesOf, List.find?_filter]

/-- The pulses that the entries of a list carry together. -/
def pulseSum (l : List RequestEntry) : Nat := (l.map fun e => e.wish.pulseCount).sum

theorem pulsesOf_entriesOf (l : List RequestEntry) (p : Point) : pulsesOf l p = pulseSum (entriesOf l p) := by
  induction l with
  | nil => rfl
  | cons e l ih =>
    simp only [pulsesOf, pulseSum, entriesOf] at ih
    by_cases own : e.point = p <;> simp [pulsesOf, pulseSum, entriesOf, own, ih]

/-- How many entries of point `p` have `flying` as their mark. -/
def entryCount (l : List RequestEntry) (p : Point) (flying : Bool) : Nat :=
  l.countP fun e => e.point = p && e.flying == flying

/-- R67, R69: the range of a request list, counted by point and mark. -/
theorem requestsInRange_iff {l : List RequestEntry} :
    RequestsInRange l ↔ ∀ p, (∀ flying, entryCount l p flying ≤ 1) ∧ pulsesOf l p ≤ 255 := by
  have counts : ∀ p, (l.filter fun e => e.point = p && !e.flying).length = entryCount l p false ∧
      (l.filter fun e => e.point = p && e.flying).length = entryCount l p true := fun p => by
    simp [entryCount, List.countP_eq_length_filter]
  refine ⟨fun ⟨pending, flying, pulses⟩ p => ⟨fun mark => ?_, pulses p⟩,
    fun h => ⟨fun p => ?_, fun p => ?_, fun p => (h p).2⟩⟩
  · cases mark
    · exact (counts p).1 ▸ pending p
    · exact (counts p).2 ▸ flying p
  · exact (counts p).1 ▸ (h p).1 false
  · exact (counts p).2 ▸ (h p).1 true

theorem entryCount_entriesOf (l : List RequestEntry) (p : Point) (flying : Bool) :
    entryCount l p flying = (entriesOf l p).countP fun e => e.flying == flying := by
  simp [entryCount, entriesOf, List.countP_filter, Bool.and_comm]

/-- R67: a point has no entry, one, or one pending and one in flight. -/
inductive PointEntries (p : Point) : List RequestEntry → Prop
  | none : PointEntries p []
  | one (e : RequestEntry) : e.point = p → PointEntries p [e]
  | both (e f : RequestEntry) : e.point = p → f.point = p → e.flying = !f.flying → PointEntries p [e, f]

theorem entriesOf_shape {l : List RequestEntry} (range : RequestsInRange l) (p : Point) :
    PointEntries p (entriesOf l p) := by
  have counts := (requestsInRange_iff.mp range p).1
  simp only [entryCount_entriesOf] at counts
  have own : ∀ e ∈ entriesOf l p, e.point = p := fun e mem => (mem_entriesOf.mp mem).2
  generalize entriesOf l p = es at counts own
  have pending := counts false
  have flying := counts true
  match es, own with
  | [], _ => exact .none
  | [e], own => exact .one e (own e (by simp))
  | [e, f], own =>
    refine .both e f (own e (by simp)) (own f (by simp)) ?_
    cases he : e.flying <;> cases hf : f.flying <;> simp [he, hf] at pending flying ⊢
  | e :: f :: g :: es, _ =>
    cases he : e.flying <;> cases hf : f.flying <;> cases hg : g.flying <;> simp [he, hf, hg] at pending flying

/-- R67: two entries of one point with the same mark are the same. -/
theorem entry_unique {l : List RequestEntry} (range : RequestsInRange l) {e f : RequestEntry} (he : e ∈ l) (hf : f ∈ l)
    (point : e.point = f.point) (mark : e.flying = f.flying) : e = f := by
  have memE := mem_entriesOf.mpr ⟨he, point⟩
  have memF := mem_entriesOf.mpr ⟨hf, rfl⟩
  have shape := entriesOf_shape range f.point
  generalize entriesOf l f.point = es at shape memE memF
  cases shape with
  | none => cases memE
  | one g => rw [List.mem_singleton.mp memE, List.mem_singleton.mp memF]
  | both g h _ _ differ =>
    simp only [List.mem_cons, List.not_mem_nil, or_false] at memE memF
    rcases memE with rfl | rfl <;> rcases memF with rfl | rfl
    · rfl
    · simp [mark] at differ
    · simp [mark] at differ
    · rfl

theorem pendingOf?_eq {l : List RequestEntry} (range : RequestsInRange l) {f : RequestEntry} (hf : f ∈ l)
    (pending : f.flying = false) : pendingOf? l f.point = some f := by
  cases found : pendingOf? l f.point with
  | none => simpa [pending] using List.find?_eq_none.mp found f hf
  | some g =>
    have holds := List.find?_some found
    simp only [Bool.and_eq_true, decide_eq_true_eq, Bool.not_eq_true'] at holds
    rw [entry_unique range (List.mem_of_find?_eq_some found) hf holds.1 (holds.2.trans pending.symm)]

theorem flyingOf?_eq {l : List RequestEntry} (range : RequestsInRange l) {f : RequestEntry} (hf : f ∈ l)
    (flying : f.flying = true) : flyingOf? l f.point = some f := by
  cases found : flyingOf? l f.point with
  | none => simpa [flying] using List.find?_eq_none.mp found f hf
  | some g =>
    have holds := List.find?_some found
    simp only [Bool.and_eq_true, decide_eq_true_eq] at holds
    rw [entry_unique range (List.mem_of_find?_eq_some found) hf holds.1 (holds.2.trans flying.symm)]

theorem pendingOf?_none {l : List RequestEntry} {p : Point} :
    pendingOf? l p = none ↔ ∀ e ∈ l, e.point = p → e.flying = true := by
  simp [pendingOf?]

theorem flyingOf?_none {l : List RequestEntry} {p : Point} :
    flyingOf? l p = none ↔ ∀ e ∈ l, e.point = p → e.flying = false := by
  simp [flyingOf?]

/-! ### A failed outcome (R70) -/

section
variable {l : List RequestEntry} {e f : RequestEntry}

/-- R70: an entry whose point has no other kind of entry becomes pending. -/
theorem settleFailedEntry_alone (alone : ∀ f ∈ l, f.point = e.point → f.flying = e.flying) :
    settleFailedEntry l e = some { e with flying := false } := by
  obtain ⟨p, wish, mark⟩ := e
  cases mark
  · simp [settleFailedEntry, flyingOf?_none.mpr alone]
  · simp [settleFailedEntry, pendingOf?_none.mpr alone]

/-- R70: an entry in flight whose point has the pending entry `f` takes its pulses, or gives way to it. -/
theorem settleFailedEntry_flying (range : RequestsInRange l) (hf : f ∈ l) (point : f.point = e.point)
    (flying : e.flying = true) (pending : f.flying = false) :
    (∀ n, e.wish = .pulses n → settleFailedEntry l e = some ⟨e.point, .pulses (n + f.wish.pulseCount), false⟩) ∧
    (e.wish = .set ∨ e.wish = .clear → settleFailedEntry l e = none) := by
  have found := pendingOf?_eq range hf pending
  rw [point] at found
  refine ⟨fun n pulses => ?_, fun held => ?_⟩
  · simp [settleFailedEntry, flying, found, pulses]
  · rcases held with held | held <;> simp [settleFailedEntry, flying, found, held]

/-- R70: a pending entry whose point has the entry `f` in flight stays, unless its pulses have gone to that one. -/
theorem settleFailedEntry_pending (range : RequestsInRange l) (hf : f ∈ l) (point : f.point = e.point)
    (pending : e.flying = false) (flying : f.flying = true) :
    (∀ n, f.wish = .pulses n → settleFailedEntry l e = none) ∧
    (f.wish = .set ∨ f.wish = .clear → settleFailedEntry l e = some e) := by
  have found := flyingOf?_eq range hf flying
  rw [point] at found
  refine ⟨fun n pulses => ?_, fun held => ?_⟩
  · simp [settleFailedEntry, pending, found, pulses]
  · rcases held with held | held <;> simp [settleFailedEntry, pending, found, held]

/-- R70: what is left of an entry is pending at its point. -/
theorem settleFailedEntry_pendingAt {g : RequestEntry} (h : settleFailedEntry l e = some g) :
    g.point = e.point ∧ g.flying = false := by
  unfold settleFailedEntry at h
  split at h
  · split at h <;> cases h <;> exact ⟨rfl, rfl⟩
  · next pending =>
    repeat' split at h
    all_goals cases h <;> exact ⟨rfl, by simpa using pending⟩

theorem entriesOf_requestsFailed (l : List RequestEntry) (p : Point) :
    entriesOf (requestsFailed l) p = (entriesOf l p).filterMap (settleFailedEntry l) := by
  rw [entriesOf, entriesOf, requestsFailed, List.filter_filterMap, List.filterMap_filter]
  refine List.filterMap_congr fun e _ => ?_
  cases settled : settleFailedEntry l e with
  | none => simp
  | some g => simp [Option.filter, (settleFailedEntry_pendingAt settled).1]

/-- R70: the one entry that two entries of a point become, the first of them in flight. -/
def mergedEntry (e f : RequestEntry) : RequestEntry :=
  match e.wish with
  | .pulses n => ⟨e.point, .pulses (n + f.wish.pulseCount), false⟩
  | .set | .clear => f

theorem mergedEntry_pulseCount (e f : RequestEntry) :
    (mergedEntry e f).wish.pulseCount = e.wish.pulseCount + f.wish.pulseCount := by
  unfold mergedEntry
  cases e.wish <;> simp [Wish.pulseCount]

/-- R70: a point with a pending entry and one in flight keeps one entry. -/
theorem entriesOf_failed_both (range : RequestsInRange l) (he : e ∈ l) (hf : f ∈ l) (point : e.point = f.point)
    (flying : e.flying = true) (pending : f.flying = false) :
    entriesOf (requestsFailed l) f.point = [mergedEntry e f] := by
  obtain ⟨pulsesE, heldE⟩ := settleFailedEntry_flying range hf point.symm flying pending
  obtain ⟨pulsesF, heldF⟩ := settleFailedEntry_pending range he point pending flying
  have memE := mem_entriesOf.mpr ⟨he, point⟩
  have memF := mem_entriesOf.mpr ⟨hf, rfl⟩
  have shape := entriesOf_shape range f.point
  rw [entriesOf_requestsFailed]
  have differ : e ≠ f := fun same => by simp [same, pending] at flying
  generalize entriesOf l f.point = es at shape memE memF
  have order : es = [e, f] ∨ es = [f, e] := by
    cases shape with
    | none => cases memE
    | one g => exact absurd ((List.mem_singleton.mp memE).trans (List.mem_singleton.mp memF).symm) differ
    | both g h =>
      simp only [List.mem_cons, List.not_mem_nil, or_false] at memE memF
      rcases memE with rfl | rfl <;> rcases memF with rfl | rfl
      · exact absurd rfl differ
      · exact .inl rfl
      · exact .inr rfl
      · exact absurd rfl differ
  rcases order with rfl | rfl <;> cases kind : e.wish with
  | pulses n => simp [pulsesE n kind, pulsesF n kind, kind, mergedEntry]
  | set => simp [heldE (.inl kind), heldF (.inl kind), kind, mergedEntry]
  | clear => simp [heldE (.inr kind), heldF (.inr kind), kind, mergedEntry]

/-- R70: what a failed outcome leaves of a point: one entry at most, with all pulses of the point. -/
theorem entriesOf_failed (range : RequestsInRange l) (p : Point) :
    entriesOf l p = [] ∧ entriesOf (requestsFailed l) p = [] ∨
    ∃ g, entriesOf (requestsFailed l) p = [g] ∧ g.wish.pulseCount = pulsesOf l p := by
  have shape := entriesOf_shape range p
  have mem : ∀ e, e ∈ entriesOf l p → e ∈ l := fun e h => (mem_entriesOf.mp h).1
  have own : ∀ e, e ∈ l → e.point = p → e ∈ entriesOf l p := fun e h point => mem_entriesOf.mpr ⟨h, point⟩
  rw [pulsesOf_entriesOf]
  have failed := entriesOf_requestsFailed l p
  have merged := fun e f => entriesOf_failed_both (l := l) (e := e) (f := f) range
  generalize entriesOf l p = es at *
  cases shape with
  | none => exact .inl ⟨rfl, failed⟩
  | one e point =>
    have alone := settleFailedEntry_alone (l := l) (e := e) fun f hf same => by
      rw [List.mem_singleton.mp (own f hf (same.trans point))]
    exact .inr ⟨{ e with flying := false }, by simp [failed, alone], by simp [pulseSum]⟩
  | both e f pointE pointF differ =>
    have he := mem e (by simp)
    have hf := mem f (by simp)
    cases mark : f.flying with
    | false =>
      refine .inr ⟨mergedEntry e f, ?_, by simp [mergedEntry_pulseCount, pulseSum]⟩
      rw [← merged e f he hf (pointE.trans pointF.symm) (by simp [differ, mark]) mark, pointF]
    | true =>
      refine .inr ⟨mergedEntry f e, ?_, by simp [mergedEntry_pulseCount, pulseSum, Nat.add_comm]⟩
      rw [← merged f e hf he (pointF.trans pointE.symm) mark (by simp [differ, mark]), pointE]

theorem pulsesOf_requestsFailed (range : RequestsInRange l) (p : Point) :
    pulsesOf (requestsFailed l) p = pulsesOf l p := by
  rw [pulsesOf_entriesOf (requestsFailed l)]
  rcases entriesOf_failed range p with ⟨before, after⟩ | ⟨g, after, pulses⟩
  · rw [after, pulsesOf_entriesOf, before]
  · simp [after, pulseSum, pulses]

theorem requestsFailed_noneFlying (l : List RequestEntry) : NoneFlying (requestsFailed l) := fun g mem => by
  obtain ⟨e, -, settled⟩ := List.mem_filterMap.mp mem
  exact (settleFailedEntry_pendingAt settled).2

/-- R70: no point has two entries after a failed outcome. -/
theorem requestsFailed_unique (range : RequestsInRange l) {g h : RequestEntry} (hg : g ∈ requestsFailed l)
    (hh : h ∈ requestsFailed l) (point : g.point = h.point) : g = h := by
  have memG := mem_entriesOf.mpr ⟨hg, point⟩
  have memH := mem_entriesOf.mpr ⟨hh, rfl⟩
  rcases entriesOf_failed range h.point with ⟨-, after⟩ | ⟨k, after, -⟩
  · simp [after] at memG
  · rw [after, List.mem_singleton] at memG memH
    exact memG.trans memH.symm

theorem mem_requestsFailed {g : RequestEntry} (he : e ∈ l) (settled : settleFailedEntry l e = some g) :
    g ∈ requestsFailed l := List.mem_filterMap.mpr ⟨e, he, settled⟩

end

/-- Settles O12: the entries alone at their point, and the pairs, by the kind of the entry in flight. -/
theorem outcomesSettleTheClaims : Obligations.OutcomesSettleTheClaims := by
  intro l rows range
  have alone : ∀ e : RequestEntry, (∀ f ∈ l, f.point = e.point → f.flying = e.flying) →
      settleFailedEntry l e = some { e with flying := false } := fun e => settleFailedEntry_alone
  have only : ∀ e ∈ l, ∀ f ∈ l, e.flying = true → f.flying = false → e.point = f.point →
      mergedEntry e f ∈ requestsFailed l ∧ ∀ g ∈ requestsFailed l, g.point = f.point → g = mergedEntry e f :=
    fun e he f hf flying pending point => by
      have after := entriesOf_failed_both range he hf point flying pending
      exact ⟨(mem_entriesOf.mp (after ▸ List.mem_singleton_self _)).1,
        fun g hg own => List.mem_singleton.mp (after ▸ mem_entriesOf.mpr ⟨hg, own⟩)⟩
  refine ⟨⟨settleFailedEntry l, rfl, fun e he => ⟨fun flying h => ?_, fun pending h => ?_,
      fun f hf point differ => ?_⟩⟩,
    pulsesOf_requestsFailed range, requestsFailed_noneFlying l, fun e he flying h => ?_,
    fun e he pending h => ?_, fun g hg h hh point => congrArg _ (requestsFailed_unique range hg hh point),
    fun e he f hf flying pending point held => ?_,
    fun e he f hf n k flying pending point pulsesE pulsesF => ?_, rfl, ?_⟩
  · exact alone e (by simpa [flying] using h)
  · rw [alone e (by simpa [pending] using h), ← pending]
  · cases mark : e.flying with
    | true =>
      obtain ⟨pulses, held⟩ := settleFailedEntry_flying range hf point mark (by simpa [mark] using differ)
      exact ⟨fun n k pulsesE pulsesF => by simp [pulses n pulsesE, pulsesF, Wish.pulseCount],
        fun heldE _ => held heldE⟩
    | false =>
      obtain ⟨pulses, held⟩ := settleFailedEntry_pending range hf point mark (by simpa [mark] using differ)
      exact ⟨fun n k _ pulsesF => pulses k pulsesF, fun _ heldF => held heldF⟩
  · exact mem_requestsFailed he (alone e (by simpa [flying] using pendingOf?_none.mp h))
  · have settled := alone e (by simpa [pending] using flyingOf?_none.mp h)
    rw [← pending] at settled
    exact mem_requestsFailed he settled
  · have merged : mergedEntry e f = f := by
      rcases held with held | held <;> simp [mergedEntry, held]
    have left := only e he f hf flying pending point
    rwa [merged] at left
  · have merged : mergedEntry e f = ⟨e.point, .pulses (n + k), false⟩ := by
      simp [mergedEntry, pulsesE, pulsesF, Wish.pulseCount]
    exact merged ▸ only e he f hf flying pending point
  · rw [rowsCommitted, List.map_map]
    refine List.map_congr_left fun r _ => ?_
    cases flying : r.flying <;> simp [flying]

/-! ### A request (R68, R69) -/

section
variable {l : List RequestEntry} {p : Point}

theorem entryCount_append (l m : List RequestEntry) (p : Point) (flying : Bool) :
    entryCount (l ++ m) p flying = entryCount l p flying + entryCount m p flying := List.countP_append

theorem entryCount_cons (e : RequestEntry) (l : List RequestEntry) (p : Point) (flying : Bool) :
    entryCount (e :: l) p flying =
      entryCount l p flying + if (e.point = p && e.flying == flying) = true then 1 else 0 := List.countP_cons ..

theorem pulsesOf_nil (p : Point) : pulsesOf [] p = 0 := rfl

theorem pulsesOf_append (l m : List RequestEntry) (p : Point) : pulsesOf (l ++ m) p = pulsesOf l p + pulsesOf m p := by
  simp [pulsesOf]

theorem pulsesOf_cons (e : RequestEntry) (l : List RequestEntry) (p : Point) :
    pulsesOf (e :: l) p = (if e.point = p then e.wish.pulseCount else 0) + pulsesOf l p := by
  simp [pulsesOf]

/-- R68, R69: a request for point `p`: a pending entry takes the wish that `w` makes of it, in its place, and otherwise
an entry with the wish `fresh` joins the end of the list. -/
def askFor (l : List RequestEntry) (p : Point) (w : RequestEntry → Wish) (fresh : Wish) : List RequestEntry :=
  if pendingOf? l p = none then l ++ [⟨p, fresh, false⟩]
  else l.map fun e => if e.point = p && !e.flying then { e with wish := w e } else e

theorem requestHeld_eq (l : List RequestEntry) (p : Point) (wish : Wish) :
    requestHeld l p wish = askFor l p (fun _ => wish) wish := by
  unfold requestHeld askFor
  cases pendingOf? l p <;> simp

theorem requestPulse_eq (l : List RequestEntry) (p : Point) :
    requestPulse l p = askFor l p (fun e => .pulses (e.wish.pulseCount + 1)) (.pulses 1) := by
  unfold requestPulse askFor
  cases pendingOf? l p <;> simp

variable {w : RequestEntry → Wish} {fresh : Wish}

theorem askFor_joins (flying : ∀ e ∈ l, e.point = p → e.flying = true) :
    askFor l p w fresh = l ++ [⟨p, fresh, false⟩] := if_pos (pendingOf?_none.mpr flying)

theorem askFor_takes {before after : List RequestEntry} {e : RequestEntry}
    (range : RequestsInRange (before ++ e :: after)) (point : e.point = p) (pending : e.flying = false) :
    askFor (before ++ e :: after) p w fresh = before ++ { e with wish := w e } :: after := by
  have found : pendingOf? (before ++ e :: after) p ≠ none := fun none => by
    simpa [pending] using pendingOf?_none.mp none e (by simp) point
  have counts := (requestsInRange_iff.mp range p).1 false
  rw [entryCount_append, entryCount_cons, if_pos (by simp [point, pending])] at counts
  have stays : ∀ m : List RequestEntry, entryCount m p false = 0 →
      (m.map fun e => if e.point = p && !e.flying then { e with wish := w e } else e) = m := fun m none => by
    refine (List.map_congr_left fun x mem => if_neg ?_).trans m.map_id
    simpa using List.countP_eq_zero.mp none x mem
  rw [askFor, if_neg found, List.map_append, List.map_cons, stays before (by omega), stays after (by omega),
    if_pos (by simp [point, pending])]

/-- R67, R69: a request that brings at most `k` pulses more keeps the list in range where its point has room. -/
theorem askFor_range {k : Nat} (range : RequestsInRange l) (more : ∀ e, (w e).pulseCount ≤ e.wish.pulseCount + k)
    (few : fresh.pulseCount ≤ k) (room : pulsesOf l p + k ≤ 255) : RequestsInRange (askFor l p w fresh) := by
  refine requestsInRange_iff.mpr fun q => ?_
  obtain ⟨counts, pulses⟩ := requestsInRange_iff.mp range q
  cases found : pendingOf? l p with
  | none =>
    have flying := pendingOf?_none.mp found
    rw [askFor_joins flying]
    refine ⟨fun mark => ?_, ?_⟩
    · rw [entryCount_append, entryCount_cons]
      have alone : entryCount l p false = 0 := List.countP_eq_zero.mpr fun e mem => by simpa using flying e mem
      split
      · next new =>
        simp only [Bool.and_eq_true, decide_eq_true_eq, beq_iff_eq] at new
        rw [← new.1, ← new.2, alone]
        simp [entryCount]
      · simpa [entryCount] using counts mark
    · rw [pulsesOf_append, pulsesOf_cons, pulsesOf_nil]
      by_cases same : p = q
      · rw [if_pos same, ← same, Nat.add_zero]
        exact (Nat.add_le_add_left few _).trans room
      · simpa [same] using pulses
  | some e =>
    have mem := List.mem_of_find?_eq_some found
    have holds := List.find?_some found
    simp only [Bool.and_eq_true, decide_eq_true_eq, Bool.not_eq_true'] at holds
    obtain ⟨before, after, rfl⟩ := List.append_of_mem mem
    rw [askFor_takes range holds.1 holds.2]
    simp only [entryCount_append, entryCount_cons, pulsesOf_append, pulsesOf_cons] at counts pulses room ⊢
    refine ⟨counts, ?_⟩
    have := more e
    by_cases same : e.point = q
    · rw [← same, holds.1] at *
      simp only [if_true] at *
      omega
    · rw [if_neg same] at *
      exact pulses

theorem requestHeld_range (range : RequestsInRange l) (p : Point) {wish : Wish} (held : wish.pulseCount = 0) :
    RequestsInRange (requestHeld l p wish) := by
  rw [requestHeld_eq]
  exact askFor_range (k := 0) range (fun e => by simp [held]) (by simp [held]) ((requestsInRange_iff.mp range p).2)

theorem requestPulse_range (range : RequestsInRange l) (room : pulsesOf l p < 255) :
    RequestsInRange (requestPulse l p) := by
  rw [requestPulse_eq]
  exact askFor_range (k := 1) range (fun _ => le_rfl) le_rfl room

end

/-! ### Outcomes and the start of an UPDATE (R70, R71) -/

section
variable {l : List RequestEntry}

theorem requestsFailed_range (range : RequestsInRange l) : RequestsInRange (requestsFailed l) := by
  refine requestsInRange_iff.mpr fun p => ⟨fun mark => ?_, ?_⟩
  · rw [entryCount_entriesOf]
    rcases entriesOf_failed range p with ⟨-, after⟩ | ⟨g, after, -⟩
    · simp [after]
    · exact after ▸ List.countP_le_length
  · exact (pulsesOf_requestsFailed range p).trans_le (requestsInRange_iff.mp range p).2

theorem requestsCommitted_range (range : RequestsInRange l) : RequestsInRange (requestsCommitted l) := by
  have fewer : (requestsCommitted l).Sublist l := List.filter_sublist
  refine requestsInRange_iff.mpr fun p => ?_
  obtain ⟨counts, pulses⟩ := requestsInRange_iff.mp range p
  exact ⟨fun mark => fewer.countP_le.trans (counts mark), ((fewer.map _).sum_le_sum (by simp)).trans pulses⟩

/-- R71: the mark is all that the start of an UPDATE changes of an entry. -/
theorem markFlying_wishes : ∀ (n : Nat) (l : List RequestEntry),
    (markFlying n l).map (fun e => (e.point, e.wish)) = l.map fun e => (e.point, e.wish)
  | 0, l => by simp [markFlying]
  | n + 1, [] => rfl
  | n + 1, e :: l => by
    unfold markFlying
    split <;> simp [markFlying_wishes]

theorem markFlying_range (range : RequestsInRange l) (grounded : NoneFlying l) (n : Nat) :
    RequestsInRange (markFlying n l) := by
  refine requestsInRange_iff.mpr fun p => ?_
  obtain ⟨counts, pulses⟩ := requestsInRange_iff.mp range p
  have wishes := markFlying_wishes n l
  refine ⟨fun mark => ?_, ?_⟩
  · have points := congrArg (List.countP fun e => decide (e.1 = p)) wishes
    rw [List.countP_map, List.countP_map] at points
    calc entryCount (markFlying n l) p mark
        ≤ (markFlying n l).countP fun e => e.point = p :=
          List.countP_mono_left fun e _ h => (Bool.and_eq_true_iff.mp h).1
      _ = l.countP fun e => e.point = p := points
      _ = entryCount l p false := List.countP_congr fun e mem => by simp [grounded e mem]
      _ ≤ 1 := counts false
  · have sums := congrArg (fun m => (m.map fun e : Point × Wish => if e.1 = p then e.2.pulseCount else 0).sum) wishes
    simp only [List.map_map] at sums
    exact sums.trans_le pulses

end

/-- Settles O13: the entry that joins the list, the pending entry that takes the request, and the pulse that is
dropped. -/
theorem edgeRequestsReachTheList : Obligations.EdgeRequestsReachTheList := by
  intro s p on range
  have held : s.takeEdgeRequest ⟨p, if on then .set else .clear⟩ = { s with asm := { s.asm with
      requests := askFor s.asm.requests p (fun _ => if on then .set else .clear) (if on then .set else .clear) } } := by
    rw [← requestHeld_eq]
    cases on <;> rfl
  have pulse : pulsesOf s.asm.requests p < 255 → s.takeEdgeRequest ⟨p, .pulse⟩ = { s with asm := { s.asm with
      requests := askFor s.asm.requests p (fun e => .pulses (e.wish.pulseCount + 1)) (.pulses 1) } } := fun room => by
    rw [← requestPulse_eq]
    exact if_pos room
  refine ⟨fun flying => ⟨?_, fun room => ?_⟩, fun before after e split point pending => ?_, fun full => ?_⟩
  · rw [held, askFor_joins flying]
  · rw [pulse room, askFor_joins flying]
  · rw [split] at range
    refine ⟨?_, fun n pulses room => ?_⟩
    · rw [held, split, askFor_takes range point pending]
    · rw [pulse room, split, askFor_takes range point pending, pulses]
      rfl
  · have dropped : s.takeEdgeRequest ⟨p, .pulse⟩ = s.report .pulseOverflow (some (.point p)) :=
      if_neg (by simp [full, Config.maxPulses])
    refine ⟨dropped, dropped ▸ takeReport_requests s _ _ _, fun absent => ?_⟩
    rw [dropped, report_fault]
    simp [FaultUnit.takeReport, absent]

end Sys2Proof.Machine

/-! SUPPORT. What every operation of the station does to the request list and to the UPDATE in flight (R67, R69 to R71,
R74, R77, R113, R115, R176, R183). -/

namespace Sys2Proof.Machine

/-! ### What becomes of the requests -/

/-- R71: an UPDATE is in flight. -/
def UpdateFlies (s : State) : Prop := ∃ fl, s.commit.flight = some fl ∧ fl.origin = .update

theorem requestsFit_iff {s : State} :
    RequestsFit s ↔ RequestsInRange s.asm.requests ∧ (NoneFlying s.asm.requests ∨ UpdateFlies s) := by
  refine ⟨fun ⟨range, flight⟩ => ⟨range, or_iff_not_imp_right.mpr fun grounded e mem => ?_⟩, fun ⟨range, flight⟩ =>
    ⟨range, fun e mem flies => flight.elim (fun none => by simp [none e mem] at flies) id⟩⟩
  exact Bool.eq_false_iff.mpr fun flies => grounded (flight e mem flies)

/-- From `s` to `t` the request list stays in range; either it ends with no entry in flight, or none comes into flight
and an UPDATE in flight stays there. -/
structure RequestsKept (s t : State) : Prop where
  range  : RequestsInRange s.asm.requests → RequestsInRange t.asm.requests
  flying : NoneFlying t.asm.requests ∨ KeepsGrounded s t ∧ (UpdateFlies s → UpdateFlies t)

namespace RequestsKept

variable {s t u : State}

theorem fits (h : RequestsKept s t) (fit : RequestsFit s) : RequestsFit t := by
  obtain ⟨range, flying⟩ := requestsFit_iff.mp fit
  refine requestsFit_iff.mpr ⟨h.range range, ?_⟩
  rcases h.flying with none | ⟨grounded, flies⟩
  · exact .inl none
  · exact flying.imp grounded flies

theorem trans (h : RequestsKept s t) (k : RequestsKept t u) : RequestsKept s u := by
  refine ⟨k.range ∘ h.range, ?_⟩
  rcases k.flying with none | ⟨grounded, flies⟩
  · exact .inl none
  · exact h.flying.imp grounded fun before => ⟨grounded ∘ before.1, flies ∘ before.2⟩

theorem grounded (h : RequestsKept s t) (none : NoneFlying s.asm.requests) : NoneFlying t.asm.requests :=
  h.flying.elim id fun kept => kept.1 none

/-- R74: the requests are the same, and the frame in flight is marked at most. -/
theorem marked (requests : t.asm.requests = s.asm.requests) (flight : FlightKept s t) : RequestsKept s t := by
  refine ⟨fun h => requests ▸ h, .inr ⟨fun h => requests ▸ h, ?_⟩⟩
  rintro ⟨fl, flies, origin⟩
  obtain ⟨w, flies', -⟩ := flight.2 fl flies
  exact ⟨_, flies', origin⟩

theorem same (requests : t.asm.requests = s.asm.requests) (flight : t.commit.flight = s.commit.flight) :
    RequestsKept s t := .marked requests (.of flight)

theorem refl (s : State) : RequestsKept s s := .same rfl rfl

theorem after (h : RequestsKept u t) (requests : u.asm.requests = s.asm.requests)
    (flight : u.commit.flight = s.commit.flight) : RequestsKept s t := (same requests flight).trans h

/-- R64: the list is empty. -/
theorem emptied (h : t.asm.requests = []) : RequestsKept s t := by
  refine ⟨fun _ => ?_, .inl ?_⟩
  · rw [h]
    exact ⟨fun _ => Nat.zero_le _, fun _ => Nat.zero_le _, fun _ => Nat.zero_le _⟩
  · rw [h]
    exact fun e mem => by cases mem

theorem foldl {α : Type} {f : State → α → State} (hf : ∀ s a, RequestsKept s (f s a)) :
    ∀ (l : List α) (s : State), RequestsKept s (l.foldl f s)
  | [], s => .refl s
  | a :: l, s => (hf s a).trans (foldl hf l (f s a))

end RequestsKept

theorem takeReport_requestsKept (s : State) (kind : FaultKind) (subject : Option Subject) (life : Lifecycle) :
    RequestsKept s (s.takeReport kind subject life) :=
  .same (takeReport_requests s kind subject life) (by rw [(takeReport_untouched s kind subject life).commit])

theorem report_requestsKept (s : State) (kind : FaultKind) (subject : Option Subject) :
    RequestsKept s (s.report kind subject) := takeReport_requestsKept s kind subject s.lifecycle

/-- R68, R69: an edge request keeps the list in range. -/
theorem takeEdgeRequest_range {s : State} (r : EdgeRequest) (range : RequestsInRange s.asm.requests) :
    RequestsInRange (s.takeEdgeRequest r).asm.requests := by
  unfold State.takeEdgeRequest
  split
  · exact requestHeld_range range r.point rfl
  · exact requestHeld_range range r.point rfl
  · split
    · next room => exact requestPulse_range range room
    · exact (report_requestsKept s _ _).range range
  all_goals exact range

theorem takeEdgeRequest_requestsKept (s : State) (r : EdgeRequest) : RequestsKept s (s.takeEdgeRequest r) := by
  refine ⟨takeEdgeRequest_range r, .inr ⟨keepsGrounded_carried.request s r, fun ⟨fl, flies, origin⟩ => ?_⟩⟩
  exact ⟨fl, by rw [(takeEdgeRequest_untouched s r).commit, flies], origin⟩

theorem requestsKept_carried : Carried RequestsKept where
  refl := .refl
  trans := .trans
  free _ _ := .same rfl rfl
  agenda _ _ := .same rfl rfl
  echoes _ _ := .same rfl rfl
  eval _ _ := .same rfl rfl
  timers _ _ := .same rfl rfl
  report := takeReport_requestsKept
  trigger _ := .same rfl rfl
  group _ _ := .same rfl rfl
  request := takeEdgeRequest_requestsKept
  output _ _ _ := .same rfl rfl
  field _ := .same rfl rfl
  desired _ _ _ := .same rfl rfl

theorem someTasks_requestsKept (s : State) : RequestsKept s s.someTasks := requestsKept_carried.someTasks s

theorem faultLineMoved_requestsKept (before : Bool) (s : State) : RequestsKept s (s.faultLineMoved before) := by
  unfold State.faultLineMoved
  split <;> exact .same rfl rfl

theorem latchedIndication_requestsKept (s : State) (on : Bool) : RequestsKept s (s.latchedIndication on) :=
  (faultLineMoved_requestsKept _ _).after rfl rfl

/-! ### Resets and departures (R64, R113, R115, R176, R177, R183) -/

theorem readStraps_requestsKept (s : State) : RequestsKept s s.readStraps := by
  unfold State.readStraps
  dsimp only
  split
  · exact .same rfl rfl
  · refine RequestsKept.trans (t := State.report _ .stationStrap none) ?_ (.same rfl rfl)
    exact (report_requestsKept _ _ _).after rfl rfl

theorem performRestart_requests (s : State) : s.performRestart.asm.requests = [] := by
  unfold State.performRestart State.readStraps
  dsimp only
  split
  · rfl
  · exact takeReport_requests _ _ _ _

theorem departs_requests (s : State) : s.departs.asm.requests = [] := by
  unfold State.departs
  dsimp only
  split
  · exact performRestart_requests _
  · rfl

/-- R113: a detach leaves no request. -/
theorem detach_requestsKept (s : State) (u : State) (cause : Option FaultKind) : RequestsKept s (u.detach cause) := by
  cases cause with
  | none => exact .emptied (departs_requests _)
  | some k => exact .emptied (departs_requests _)

theorem returnToListen_requestsKept (s : State) : RequestsKept s s.returnToListen := by
  unfold State.returnToListen
  split
  · exact .same rfl rfl
  · exact .emptied rfl

/-! ### The respondent and the service unit (R74, R101, R102, R106, R159, R165 to R169) -/

theorem ServiceOnly.requestsKept {s t : State} (h : ServiceOnly s t) : RequestsKept s t := by
  obtain ⟨kept, eq⟩ := h
  exact .marked (by rw [eq]) kept

theorem RespondOnly.requestsKept {s t : State} (h : RespondOnly s t) : RequestsKept s t := by
  obtain ⟨kept, eq⟩ := h
  exact .marked (by rw [eq]) kept

theorem clearFaults_requestsKept (s : State) (counts : Bool) : RequestsKept s (s.clearFaults counts) := by
  have record : RequestsKept s (s.clearRecord counts) :=
    (faultLineMoved_requestsKept s.fault.line _).after rfl rfl
  refine record.trans ?_
  unfold State.clearFaults State.clearOutputFaults
  dsimp only
  split
  · exact .same rfl rfl
  · exact (latchedIndication_requestsKept _ _).after rfl rfl

theorem openSession_requestsKept (s : State) (x : Station) (tag : Byte) (q : Request) :
    RequestsKept s (s.openSession x tag q) := by
  unfold State.openSession
  dsimp only
  refine RequestsKept.trans ?_ (handResponse_only _).requestsKept
  split
  · exact (clearFaults_requestsKept s _).trans (.same rfl rfl)
  · exact .same rfl rfl
  · split <;> exact .same rfl rfl
  all_goals exact .same rfl rfl

theorem takeServiceRequest_requestsKept (s : State) (x : Station) (tag : Byte) (q : Request) :
    RequestsKept s (s.takeServiceRequest x tag q) := by
  unfold State.takeServiceRequest
  split
  · exact openSession_requestsKept s x tag q
  · split
    · exact (abandonSession_only s).requestsKept.trans (openSession_requestsKept _ x tag q)
    · exact (handResponse_only _).requestsKept.after rfl rfl

theorem serve_requestsKept (s : State) (before : Roster) (f : Frame) : RequestsKept s (s.serve before f) := by
  by_cases request : ∃ x y tag q, f = .svcReq x y tag q
  · obtain ⟨x, y, tag, q, rfl⟩ := request
    unfold State.serve
    dsimp only
    split
    · exact takeServiceRequest_requestsKept s x tag q
    · exact .refl s
  · exact (serve_only s before fun x y tag q h => request ⟨x, y, tag, q, h⟩).requestsKept

/-! ### The delivery of a frame (R54, R55, R96 to R112) -/

theorem takeLiveFrame_requestsKept (s : State) (f : Frame) : RequestsKept s (s.takeLiveFrame f) := by
  have applied : RequestsKept s (s.applyLiveFrame f) := by
    rw [applyLiveFrame_eq]
    exact .same rfl rfl
  exact applied.trans ((respond_only _ _ f).requestsKept.trans ((serve_requestsKept _ _ f).trans (.same rfl rfl)))

theorem noteStray_requestsKept (s : State) (x : Station) : RequestsKept s (s.noteStray x) := by
  unfold State.noteStray
  dsimp only
  split
  · exact detach_requestsKept _ _ _
  · exact .same rfl rfl

theorem deliverLive_requestsKept (s : State) (f : Frame) (own : Bool) : RequestsKept s (s.deliverLive f own) := by
  unfold State.deliverLive
  split
  · split
    · exact .refl s
    · split
      · exact noteStray_requestsKept s _
      · exact noteStray_requestsKept s _
      all_goals exact .refl s
  · split
    · exact detach_requestsKept _ _ _
    · exact takeLiveFrame_requestsKept s f

theorem checkIsolation_requestsKept (s : State) (before : Roster) : RequestsKept s (s.checkIsolation before) := by
  unfold State.checkIsolation
  split
  · exact detach_requestsKept _ _ _
  · exact .refl s

theorem noteActivity_requestsKept (s : State) : RequestsKept s s.noteActivity := by
  rw [noteActivity_eq]
  exact .same rfl rfl

theorem endListening_requestsKept (s : State) : RequestsKept s s.endListening := by
  unfold State.endListening
  dsimp only
  split
  · exact .same rfl rfl
  · split
    · exact (returnToListen_requestsKept _).after rfl rfl
    · exact .same rfl rfl

theorem applyFounding_requestsKept (s : State) (f : Frame) : RequestsKept s (s.applyFounding f) := by
  unfold State.applyFounding
  split
  · exact .same rfl rfl
  · split <;> exact .same rfl rfl

theorem nextCandidate_requestsKept (s : State) : RequestsKept s s.nextCandidate := by
  unfold State.nextCandidate
  split
  · exact .same rfl rfl
  · exact detach_requestsKept _ _ _

theorem takeBusy_requestsKept (s : State) (x : Station) : RequestsKept s (s.takeBusy x) := by
  unfold State.takeBusy
  dsimp only
  rw [apply_ite (RequestsKept s)]
  exact ite_prop_iff_or.mpr (by simp [nextCandidate_requestsKept, RequestsKept.refl])

theorem keepInBacklog_requestsKept (s : State) (f : Frame) : RequestsKept s (s.keepInBacklog f) := by
  unfold State.keepInBacklog
  split
  · exact detach_requestsKept _ _ _
  · exact .same rfl rfl

theorem completeFromFounding_requestsKept (s : State) : RequestsKept s s.completeFromFounding := by
  unfold State.completeFromFounding
  split
  · exact detach_requestsKept _ _ _
  · dsimp only
    split
    · exact detach_requestsKept _ _ _
    · exact .same rfl rfl

theorem answerExpires_requestsKept (s : State) : RequestsKept s s.answerExpires := by
  unfold State.answerExpires
  split
  · exact completeFromFounding_requestsKept s
  · exact nextCandidate_requestsKept s

theorem takePart_requestsKept (s : State) (x : Station) (k : Nat) (body : PartBody) :
    RequestsKept s (s.takePart x k body) := by
  unfold State.takePart
  split
  · exact .refl s
  · dsimp only
    split <;> split <;> exact .same rfl rfl

theorem deliverListening_requestsKept (s : State) (f : Frame) (own : Bool) :
    RequestsKept s (s.deliverListening f own) := by
  have founding : ∀ (c : Prop) [Decidable c] (u : State), RequestsKept u (if c then u.applyFounding f else u) :=
    fun c _ u => by
      split
      · exact applyFounding_requestsKept u f
      · exact .refl u
  have candidate : RequestsKept s (s.noteCandidate f) := by
    unfold State.noteCandidate
    split <;> exact .same rfl rfl
  unfold State.deliverListening
  dsimp only
  split
  · split
    · exact (founding _ s).trans (.same rfl rfl)
    · exact founding _ s
  · exact candidate.trans (founding _ _)

theorem deliverJoiner_requestsKept (s : State) (f : Frame) (own : Bool) : RequestsKept s (s.deliverJoiner f own) := by
  unfold State.deliverJoiner
  split
  · split
    · exact .same rfl rfl
    · exact .refl s
  · split
    · exact detach_requestsKept _ _ _
    · split
      · split
        · exact takePart_requestsKept s _ _ _
        · exact .refl s
      · split
        · exact takeBusy_requestsKept s _
        · exact .refl s
      · split
        · exact keepInBacklog_requestsKept s _
        · exact .refl s

/-- R54, R55: a committed frame at the blocks, by the lifecycle. -/
theorem deliver_requestsKept (s : State) (f : Frame) (own : Bool) : RequestsKept s (s.deliver f own) := by
  unfold State.deliver
  split
  · exact deliverListening_requestsKept s f own
  · split
    · split
      · exact (deliverLive_requestsKept s _ _).trans ((someTasks_requestsKept _).trans (.same rfl rfl))
      · exact deliverLive_requestsKept s _ _
    · exact deliverJoiner_requestsKept s f own
  · exact deliverLive_requestsKept s f own
  all_goals exact .refl s

/-! ### The close of a check slot (R52 to R58, R66, R70, R77) -/

theorem settleSlot_requestsKept (s : State) (fl : Flight) (wasLost : Bool) :
    RequestsKept s (s.settleSlot fl wasLost) := by
  unfold State.settleSlot
  split
  next => split <;> exact .same rfl rfl
  next => exact .refl s
  next => exact .refl s
  next => exact .refl s
  next =>
    unfold State.partSent
    split
    · split <;> exact .same rfl rfl
    · exact .same rfl rfl
  next => exact .same rfl rfl
  next =>
    rw [releaseCommitted_eq]
    exact .same rfl rfl
  next => exact (handResponse_only _).requestsKept.after rfl rfl
  next =>
    unfold State.partCommitted
    split <;> exact (handResponse_only _).requestsKept.after rfl rfl

/-- R74, R174: what COMMITTED does after the requests in flight have left. -/
theorem settleCommitted_requestsKept (s : State) (fl : Flight) (wasLost : Bool) :
    RequestsKept s.outcomeTaken (s.settleCommitted fl wasLost) := by
  by_cases restart : fl.origin = .sessionPart true
  · rw [show s.settleCommitted fl wasLost = s.outcomeTaken.restartAfter from if_pos restart]
    exact .emptied (performRestart_requests _)
  · cases withdrawn : fl.withdrawn with
    | true =>
      rw [settleCommitted_withdrawn restart withdrawn]
      exact .refl _
    | false =>
      rw [settleCommitted_kept restart withdrawn]
      exact settleSlot_requestsKept _ fl wasLost

/-- R53, R70, R77: the own frame has left the medium, and its commit leaves no request in flight. -/
theorem ownCommitted_requestsKept (s : State) (fl : Flight) : RequestsKept s (s.frameEnds.ownCommitted fl) := by
  have taken : RequestsKept s.ownSlotClosed (s.ownSlotClosed.deliver fl.frame true).someTasks :=
    (deliver_requestsKept _ fl.frame true).trans (someTasks_requestsKept _)
  have settled : RequestsKept (s.ownSlotClosed.deliver fl.frame true).someTasks.outcomeTaken
      (s.frameEnds.ownCommitted fl) :=
    (settleCommitted_requestsKept _ fl _).trans (checkIsolation_requestsKept _ _)
  exact ⟨fun range => settled.range (requestsCommitted_range (taken.range range)),
    .inl (settled.grounded (requestsCommitted_noneFlying _))⟩

/-- R70: a failed outcome. -/
theorem settleFailed_requestsKept (s : State) : RequestsKept s s.settleFailed :=
  ⟨requestsFailed_range, .inl (requestsFailed_noneFlying _)⟩

theorem abortFlight_requestsKept (s : State) : RequestsKept s s.abortFlight := by
  unfold State.abortFlight State.countFailure
  split
  · exact (settleFailed_requestsKept s).trans (.same rfl rfl)
  · exact detach_requestsKept _ _ _

theorem frameEnds_requestsKept (s : State) : RequestsKept s s.frameEnds := .same rfl rfl

theorem vetoesCleared_requestsKept (s : State) : RequestsKept s s.vetoesCleared := by
  unfold State.vetoesCleared
  split <;> exact .same rfl rfl

theorem ownVeto_requestsKept (s : State) : RequestsKept s s.ownVeto := by
  unfold State.ownVeto
  split
  · exact .same rfl rfl
  · exact detach_requestsKept _ _ _

theorem slotEnds_requestsKept (s : State) : RequestsKept s s.frameEnds.endPacing.noteActivity :=
  (noteActivity_requestsKept s.frameEnds.endPacing).after rfl rfl

theorem peerCommitted_requestsKept (s : State) (f : Frame) : RequestsKept s (s.peerCommitted f) := by
  unfold State.peerCommitted
  split
  · exact (noteActivity_requestsKept _).after rfl rfl
  · dsimp only
    split
    · exact (slotEnds_requestsKept s).trans (ownVeto_requestsKept _)
    · exact slotEnds_requestsKept s
  · dsimp only
    split
    · exact .emptied rfl
    · exact ((slotEnds_requestsKept s).trans (vetoesCleared_requestsKept _)).trans
        ((deliver_requestsKept _ _ _).trans (checkIsolation_requestsKept _ _))

theorem commitFrame_requestsKept (s : State) (f : Frame) : RequestsKept s (s.commitFrame f) := by
  unfold State.commitFrame
  split
  · exact .refl s
  · split
    · exact frameEnds_requestsKept s
    · split
      · exact ownCommitted_requestsKept s _
      · exact peerCommitted_requestsKept s f

theorem vetoSlot_requestsKept (s : State) (cells : List Waveform) : RequestsKept s (s.vetoSlot cells) := by
  unfold State.vetoSlot
  split
  · exact .refl s
  · split
    · exact frameEnds_requestsKept s
    · split
      · exact (abortFlight_requestsKept s.frameEnds).after rfl rfl
      · dsimp only
        split
        · exact slotEnds_requestsKept s
        · split
          · exact slotEnds_requestsKept s
          · exact (slotEnds_requestsKept s).trans (vetoesCleared_requestsKept _)
          · exact (slotEnds_requestsKept s).trans (ownVeto_requestsKept _)

/-- R46 to R51: a level on the medium. -/
theorem activity_requestsKept (s : State) (a : Activity) : RequestsKept s
    (({ s with commit := s.commit.observe s.cellTime s.lifecycle.onMedium a }).noteActivity.senderActs
      (s.commit.standingAt? s.cellTime a)) := by
  have seen : RequestsKept s (State.noteActivity { s with
      commit := s.commit.observe s.cellTime s.lifecycle.onMedium a }) :=
    (noteActivity_requestsKept _).after rfl (observe_flight _ _ _ _)
  unfold State.senderActs
  split
  · exact seen.trans (settleFailed_requestsKept _)
  · exact seen.trans (abortFlight_requestsKept _)
  · exact seen
  · exact seen

/-! ### The start of a frame (R62, R71) -/

theorem startUpdate_range {a : Assembler} (range : RequestsInRange a.requests) (grounded : NoneFlying a.requests)
    (faultPoint : Option Point) : RequestsInRange (a.startUpdate faultPoint).requests :=
  markFlying_range range grounded _

/-- R62, R71: a frame starts where none is in flight, and only an UPDATE brings requests into flight. -/
theorem startFrame_fits {s : State} (fit : RequestsFit s) : RequestsFit s.startFrame := by
  obtain ⟨range, flying⟩ := requestsFit_iff.mp fit
  unfold State.startFrame
  split
  · next may =>
    obtain ⟨-, landed, -⟩ := mayStart_iff.mp may
    have grounded : NoneFlying s.asm.requests := flying.resolve_right fun ⟨fl, flies, _⟩ => by simp [landed] at flies
    split
    · next f origin due =>
      by_cases update : origin = .update
      · subst update
        exact requestsFit_iff.mpr ⟨startUpdate_range range grounded s.setup.faultPoint, .inr ⟨_, rfl, rfl⟩⟩
      · have requests : (s.launch f origin).asm.requests = s.asm.requests := by simp [State.launch, update]
        exact requestsFit_iff.mpr ⟨requests ▸ range, .inl (requests ▸ grounded)⟩
    · exact fit
  · exact fit

/-! ### The loader and the field lines (R146, R147, R153, R177 to R182) -/

theorem putInput_requestsKept (s : State) (n : Nat) (i j : FieldInput) : RequestsKept s (s.putInput n i j) := by
  unfold State.putInput
  dsimp only
  split <;> exact .same rfl rfl

theorem loadFails_requestsKept (s : State) (failure : LoadFailure) : RequestsKept s (s.loadFails failure) :=
  (report_requestsKept s _ _).trans (.same rfl rfl)

theorem handover_requestsKept (s : State) (c : StationSetup) : RequestsKept s (s.handover c) := by
  have inputs : ∀ u : State, RequestsKept u u.startInputs := fun u => by
    unfold State.startInputs
    refine RequestsKept.foldl (fun s n => ?_) _ _
    split
    · exact putInput_requestsKept _ _ _ _
    · exact .refl s
  exact (inputs _).after rfl rfl

theorem takeTransfer_requestsKept (s : State) (answer : Option (List Byte)) :
    RequestsKept s (s.takeTransfer answer) := by
  unfold State.takeTransfer
  split
  · exact .refl s
  · split
    · unfold State.takeHeader
      split
      · exact .same rfl rfl
      · exact loadFails_requestsKept s _
    · exact loadFails_requestsKept s _
  · split
    · unfold State.takeBlock
      split
      · exact handover_requestsKept s _
      · exact loadFails_requestsKept s _
    · exact loadFails_requestsKept s _

theorem addLoss_requestsKept (s : State) (x : Station) : RequestsKept s (s.addLoss x) := by
  unfold State.addLoss
  split
  · exact .refl s
  · exact .same rfl rfl

theorem silenceExceeded_requestsKept (s : State) (x : Station) : RequestsKept s (s.silenceExceeded x) := by
  refine RequestsKept.trans ?_ (checkIsolation_requestsKept _ _)
  exact (addLoss_requestsKept _ x).after rfl rfl

theorem inputLine_requestsKept (s : State) (n : Nat) (level : Bool) : RequestsKept s (s.inputLine n level) := by
  unfold State.inputLine
  split
  · split <;> exact putInput_requestsKept _ _ _ _
  · exact .refl s

theorem filterExpires_requestsKept (s : State) (n : Nat) : RequestsKept s (s.filterExpires n) := by
  unfold State.filterExpires
  split
  · exact putInput_requestsKept _ _ _ _
  · exact .refl s

theorem latchOutput_requestsKept (s : State) (n : Nat) : RequestsKept s (s.latchOutput n) := by
  unfold State.latchOutput
  dsimp only
  split
  · exact ((report_requestsKept _ _ _).trans (latchedIndication_requestsKept _ _)).after rfl rfl
  · exact (report_requestsKept _ _ _).after rfl rfl

/-! ### Commands and steps -/

/-- A command is an effect on the blocks that leaves the requests fitting, and then the taking of what they have handed
on (R127). -/
def FitEffect (s : State) (o : Answer) : Prop := ∃ u, o = u.answer ∧ (RequestsFit s → RequestsFit u)

theorem FitEffect.of {s u : State} (h : RequestsKept s u) : FitEffect s u.answer := ⟨u, rfl, h.fits⟩

theorem FitEffect.ite {c : Prop} [Decidable c] {s u : State} (h : RequestsKept s u) :
    FitEffect s (if c then u else s).answer := by
  split
  · exact .of h
  · exact .of (.refl s)

theorem exec_fitEffect (c : Instr) (s : State) : FitEffect s (exec c s) := by
  cases c with
  | powerOnReset => exact .of (.emptied rfl)
  | resetLineAssertion => exact .of (.emptied rfl)
  | resetRelease straps => exact .ite ((readStraps_requestsKept _).after rfl rfl)
  | configurationRead answer =>
    show FitEffect s (execConfigurationRead answer s)
    unfold execConfigurationRead
    split
    · exact .of (.refl s)
    · exact .of (takeTransfer_requestsKept s answer)
  | idleReached =>
    show FitEffect s (execIdleReached s)
    unfold execIdleReached
    split <;> exact .of (.same rfl rfl)
  | frameStart => exact ⟨s.startFrame, rfl, startFrame_fits⟩
  | arbitrationLost => exact .ite (settleFailed_requestsKept s)
  | abort => exact .ite (abortFlight_requestsKept s)
  | frameIncomplete =>
    show FitEffect s (execFrameIncomplete s)
    unfold execFrameIncomplete
    split
    · exact .of (.refl s)
    · exact .of ((noteActivity_requestsKept s.frameStops).after rfl rfl)
  | veto cells => exact .of (vetoSlot_requestsKept s cells)
  | listenPeriodExpiry => exact .ite (endListening_requestsKept s)
  | answerTimerExpiry => exact .ite (answerExpires_requestsKept s)
  | partGapExpiry => exact .ite (nextCandidate_requestsKept s)
  | rejoinHoldoffExpiry => exact .ite (returnToListen_requestsKept s)
  | straySetExpiry x => exact .ite (.same rfl rfl)
  | silenceLimit x => exact .ite (silenceExceeded_requestsKept s x)
  | entryDeadline x => exact .ite ((addLoss_requestsKept _ x).after rfl rfl)
  | rollcallDue => exact .ite (.same rfl rfl)
  | pacingGap => exact .ite (.same rfl rfl)
  | pulseWindowExpiry p => exact .ite (.same rfl rfl)
  | unitExpiry n => exact .of (.same rfl rfl)
  | inputLineChange n level => exact .of (inputLine_requestsKept s _ level)
  | filterRunExpiry n => exact .of (filterExpires_requestsKept s _)
  | readbackLineChange n level => exact .of (.same rfl rfl)
  | settleTimerExpiry n => exact .of (.same rfl rfl)
  | mismatchTimerExpiry n =>
    show FitEffect s (execMismatchTimerExpiry n s)
    unfold execMismatchTimerExpiry
    split
    · exact .ite (latchOutput_requestsKept s _)
    · exact .of (.refl s)
  | activity a =>
    show FitEffect s (execActivity a s)
    unfold execActivity
    split
    · exact .of (.refl s)
    · exact .of (activity_requestsKept s a)
  | _ => exact .of (commitFrame_requestsKept s _)

theorem queueInAnyOrder_requestsKept : ∀ (n : Nat) (due : List Instr) (s : State),
    RequestsKept s (queueInAnyOrder n due s)
  | 0, _, s => .refl s
  | n + 1, due, s => by
    have drawn : RequestsKept s (s.draw due.length).2 := requestsKept_carried.toKept.draw s _
    unfold queueInAnyOrder
    dsimp only
    split
    · exact drawn.trans ((queueInAnyOrder_requestsKept n _ _).after rfl rfl)
    · exact drawn

theorem millisecond_requestsKept (s : State) : RequestsKept s s.millisecond := by
  unfold State.millisecond
  split
  · exact .refl s
  · exact (queueInAnyOrder_requestsKept _ _ _).after rfl rfl

/-- Settles O58: every command, with the hand-offs that follow from it, and the millisecond. -/
theorem pulsesNeverExceedTheirLimit : Obligations.PulsesNeverExceedTheirLimit := by
  intro s t fit h
  unfold step at h
  split at h
  · next c rest pending =>
    obtain ⟨u, effect, fits⟩ := exec_fitEffect c { s with pending := rest }
    rw [effect] at h
    cases h
    have dequeued : RequestsKept s { s with pending := rest } := .same rfl rfl
    exact (requestsKept_carried.finish u).fits (fits (dequeued.fits fit))
  · cases h
    exact (millisecond_requestsKept s).fits fit

end Sys2Proof.Machine

/-! SUPPORT. The commit of this station's own service response (R73, R77, R167, R168). -/

namespace Sys2Proof.Machine

/-- R168: an empty response slot takes the next response, and a full one none. -/
theorem handResponse_whenEmpty (s : State) : s.handResponse =
    if s.asm.responseSlot = none then { s with asm := { s.asm with responseSlot := nextResponse s.service } }
    else s := by
  rw [handResponse_eq]
  split
  · next empty => rw [empty]; rfl
  · next full =>
    obtain ⟨r, full⟩ := Option.ne_none_iff_exists'.mp full
    have same : { s.asm with responseSlot := some r } = s.asm := by rw [← full]
    rw [full, Option.some_or, same]

theorem handResponse_emptied (s : State) (v : ServiceUnit) :
    State.handResponse { s with asm := { s.asm with responseSlot := none }, service := v } =
      { s with asm := { s.asm with responseSlot := nextResponse v }, service := v } := by
  rw [handResponse_eq]
  rfl

/-- R168: the session once a part of it has committed. -/
theorem partCommitted_eq {s : State} {ss : Session} (session : s.service.session = some ss) :
    State.partCommitted { s with asm := { s.asm with responseSlot := none } } =
      State.handResponse { s with
        asm := { s.asm with responseSlot := none }
        service := { s.service with
          session := if ss.next < ss.parts then some { ss with next := ss.next + 1 } else none } } := by
  simp only [State.partCommitted, session]

section
variable {s : State} {y : Station} {tag : Byte} {status : Status} {k n : Nat} {payload : List Byte}
  (life : s.lifecycle = .active) (own : s.roster.stateOf s.number = .active)
include life own

/-- R73, R77, R168: the commit of an own response: its outcome leaves the service unit as `v`, and the slot it came from
takes the next response. -/
theorem ownResponse_settles {origin : Origin} {v : ServiceUnit} (notRestart : origin ≠ .sessionPart true)
    (h : OwnFrame s ⟨.svcRsp s.number y tag status k n payload, origin, false⟩)
    (outcome : ∀ u : State, u.service = s.service →
      u.settleSlot ⟨.svcRsp s.number y tag status k n payload, origin, false⟩ false =
        State.handResponse { u with asm := { u.asm with responseSlot := none }, service := v }) :
    ∃ t, exec (.svcRsp s.number y tag status k n payload) s = .next t ∧ t.commit = ownCommitUnit s ∧
      t.asm.rollDue = false ∧ t.service = v ∧ t.asm.responseSlot = nextResponse v := by
  obtain ⟨m, u, -, untouched, commit⟩ := commitFrame_ownPlain h life own rfl notRestart
  rw [settleCommitted_kept notRestart rfl, show targetLost s.roster _ = false from rfl,
    outcome u.outcomeTaken untouched.service, handResponse_emptied] at commit
  have kept := finish_untouched (s.commitFrame (.svcRsp s.number y tag status k n payload))
  rw [commit] at kept
  exact ⟨_, by rw [exec_frame rfl, commit]; rfl, kept.commit.trans untouched.commit, kept.rollDue, kept.service,
    kept.responseSlot⟩

end

/-- Settles O29: the empty slot, and the two kinds of response that leave it. -/
theorem ownResponseAdvancesTheSession : Obligations.OwnResponseAdvancesTheSession := by
  refine ⟨handResponse_whenEmpty, fun s y tag status k n payload life _ own => ⟨fun ss h session => ?_, fun h => ?_⟩⟩
  · obtain ⟨t, step, commit, rollDue, service, slot⟩ := ownResponse_settles life own (by simp) h
      (v := { s.service with session := if ss.next < ss.parts then some { ss with next := ss.next + 1 } else none })
      fun u same => (partCommitted_eq (s := u) (by rw [same, session])).trans (by rw [same])
    exact ⟨t, step, commit, rollDue, by rw [service], by rw [service], slot.trans (by rw [service])⟩
  · obtain ⟨t, step, commit, rollDue, service, slot⟩ := ownResponse_settles life own (by simp) h
      (v := { s.service with busyList := s.service.busyList.filter fun e => e.1 ≠ y })
      fun u same => by rw [← same]; rfl
    exact ⟨t, step, commit, rollDue, by rw [service], by rw [service], slot.trans (by rw [service])⟩

end Sys2Proof.Machine

/-! SUPPORT. The frame that is due: the claims of a station, their content and their order (R66, R71 to R76, R101, R167,
R168). -/

namespace Sys2Proof.Machine

/-! ### Claims and their frames -/

/-- R72 to R76: the claims of a station, each with its frame, by the lifecycle that allows it. -/
inductive Claims (s : State) : Frame → Origin → Prop
  | join : s.lifecycle = .listen ∨ s.lifecycle = .joining → s.asm.joinSlot = some .join →
      Claims s (.join s.number s.join.choice s.setup.period) .joinSlot
  | entry : s.lifecycle = .joining → s.asm.joinSlot = some .entry →
      Claims s (.entry s.number s.setup.period (entryItems s.asm s.setup.faultPoint)) .joinSlot
  | loss {y : Station} : s.lifecycle = .active → s.asm.lossSet.head? = some y → Claims s (.loss s.number y) .loss
  | release {y : Station} : s.lifecycle = .active → s.asm.releaseSlot = some y →
      Claims s (.release s.number y) .release
  | busy {y : Station} : s.lifecycle = .active → s.asm.busySet.head? = some y →
      Claims s (.busy s.number y) (.busy y)
  | part {sn : Snapshot} : s.lifecycle = .active → s.asm.partSlot = true → s.join.snapshot = some sn →
      Claims s (.image s.number sn.joiner sn.next (snapshotPart sn sn.next)) .part
  | update : s.lifecycle = .active → updateItems s.asm s.setup.faultPoint ≠ [] →
      Claims s (.update s.number (updateItems s.asm s.setup.faultPoint)) .update
  | rollcall : s.lifecycle = .active → s.asm.rollDue = true → Claims s (.rollcall s.number s.setup.period) .rollcall
  | busyAnswer {y : Station} {tag : Byte} : s.lifecycle = .active → s.asm.responseSlot = some (.busyAnswer y) →
      (y, tag) ∈ s.service.busyList → Claims s (.svcRsp s.number y tag .busy 1 1 []) (.busyAnswer y)
  | sessionPart {ss : Session} : s.lifecycle = .active → s.asm.responseSlot = some .sessionPart →
      s.service.session = some ss →
      Claims s (.svcRsp s.number ss.requester ss.tag (responsePart s ss ss.next).1 ss.next ss.parts
        (responsePart s ss ss.next).2) (.sessionPart (ss.request = .restart))

theorem entryOf?_mem {α : Type} {x : Station} {v : α} {l : List (Station × α)} (h : entryOf? x l = some v) :
    (x, v) ∈ l := by
  obtain ⟨⟨y, w⟩, found, rfl⟩ := Option.map_eq_some_iff.mp h
  obtain rfl : y = x := by simpa using List.find?_some found
  exact List.mem_of_find?_eq_some found

section
variable {s : State} {f : Frame} {origin : Origin}

theorem responseFrame_claims (life : s.lifecycle = .active) (h : responseFrame? s = some (f, origin)) :
    Claims s f origin := by
  unfold responseFrame? at h
  split at h
  · cases h
  · next y slot =>
    split at h
    · next tag entry =>
      cases h
      exact .busyAnswer life slot (entryOf?_mem entry)
    · cases h
  · next slot =>
    split at h
    · next ss session =>
      cases h
      exact .sessionPart life slot session
    · cases h

theorem partFrame_eq {f : Frame} (h : partFrame? s = some f) : s.asm.partSlot = true ∧
    ∃ sn, s.join.snapshot = some sn ∧ f = .image s.number sn.joiner sn.next (snapshotPart sn sn.next) := by
  unfold partFrame? at h
  split at h
  · next slot =>
    obtain ⟨sn, snapshot, rfl⟩ := Option.map_eq_some_iff.mp h
    exact ⟨slot, sn, snapshot, rfl⟩
  · cases h

theorem activeClaims_claims (life : s.lifecycle = .active) (h : some (f, origin) ∈ activeClaims s) :
    Claims s f origin := by
  simp only [activeClaims, List.mem_cons, List.not_mem_nil, or_false] at h
  rcases h with loss | release | busy | part | update | rollcall | response
  · obtain ⟨y, head, eq⟩ := Option.map_eq_some_iff.mp loss.symm
    cases eq
    exact .loss life head
  · obtain ⟨y, slot, eq⟩ := Option.map_eq_some_iff.mp release.symm
    cases eq
    exact .release life slot
  · obtain ⟨y, head, eq⟩ := Option.map_eq_some_iff.mp busy.symm
    cases eq
    exact .busy life head
  · obtain ⟨g, frame, eq⟩ := Option.map_eq_some_iff.mp part.symm
    cases eq
    obtain ⟨slot, sn, snapshot, rfl⟩ := partFrame_eq frame
    exact .part life slot snapshot
  · split at update
    · cases update
    · next items =>
      cases update
      exact .update life (by simpa using items)
  · split at rollcall
    · next due =>
      cases rollcall
      exact .rollcall life due
    · cases rollcall
  · exact responseFrame_claims life response.symm

theorem dueFrame_active (life : s.lifecycle = .active) : dueFrame? s = (activeClaims s).findSome? id := by
  simp only [dueFrame?, life]

/-- R75: the frame chosen carries a claim that the lifecycle allows. -/
theorem dueFrame_claims (due : dueFrame? s = some (f, origin)) : Claims s f origin := by
  unfold dueFrame? at due
  split at due
  next life =>
    split at due
    · next slot =>
      cases due
      exact .join (.inl life) slot
    · cases due
  next life =>
    obtain ⟨j, slot, eq⟩ := Option.map_eq_some_iff.mp due
    cases eq
    cases j with
    | join => exact .join (.inr life) slot
    | entry => exact .entry life slot
  next life =>
    obtain ⟨claim, mem, rfl⟩ := List.exists_of_findSome?_eq_some due
    exact activeClaims_claims life mem
  all_goals cases due

/-! ### The order of the claims (R75) -/

/-- Claims of given ranks stand in the order of their ranks where the ranks do. -/
theorem ascend_of_ranks {claims : List (Option (Frame × Origin))} {ranks : List Nat}
    (h : List.Forall₂ (fun c n => ∀ f ∈ c, frameRank f.1 = n) claims ranks) (sorted : ranks.Pairwise (· < ·)) :
    claims.Pairwise fun a b => ∀ f ∈ a, ∀ g ∈ b, frameRank f.1 ≤ frameRank g.1 := by
  obtain ⟨sameLength, rank⟩ := List.forall₂_iff_get.mp h
  rw [List.pairwise_iff_getElem] at sorted ⊢
  intro i j hi hj less f hf g hg
  rw [rank i hi (sameLength ▸ hi) f hf, rank j hj (sameLength ▸ hj) g hg]
  exact (sorted i j _ _ less).le

/-- R75: the claims of an ACTIVE station stand in the order of their ranks. -/
theorem activeClaims_ascend (s : State) :
    (activeClaims s).Pairwise fun a b => ∀ f ∈ a, ∀ g ∈ b, frameRank f.1 ≤ frameRank g.1 := by
  have part : ∀ f, partFrame? s = some f → frameRank f = 4 := fun f h => by
    obtain ⟨-, sn, -, rfl⟩ := partFrame_eq h
    rfl
  have response : ∀ f o, responseFrame? s = some (f, o) → frameRank f = 9 := fun f o h => by
    unfold responseFrame? at h
    repeat' split at h
    all_goals cases h <;> rfl
  refine ascend_of_ranks (ranks := [0, 1, 3, 4, 6, 7, 9])
    (.cons ?_ (.cons ?_ (.cons ?_ (.cons ?_ (.cons ?_ (.cons ?_ (.cons ?_ .nil))))))) (by decide)
  · rintro f loss
    obtain ⟨y, -, rfl⟩ := Option.map_eq_some_iff.mp loss
    rfl
  · rintro f release
    obtain ⟨y, -, rfl⟩ := Option.map_eq_some_iff.mp release
    rfl
  · rintro f busy
    obtain ⟨y, -, rfl⟩ := Option.map_eq_some_iff.mp busy
    rfl
  · rintro f image
    obtain ⟨g, frame, rfl⟩ := Option.map_eq_some_iff.mp image
    exact part g frame
  · rintro f update
    split at update <;> cases update
    rfl
  · rintro f rollcall
    split at rollcall <;> cases rollcall
    rfl
  · exact fun f answer => response f.1 f.2 answer

/-- R75: no due frame has a lower rank than the frame chosen. -/
theorem dueFrame_lowest (life : s.lifecycle = .active) (due : dueFrame? s = some (f, origin)) {g : Frame} {o : Origin}
    (mem : some (g, o) ∈ activeClaims s) : frameRank f ≤ frameRank g := by
  rw [dueFrame_active life] at due
  obtain ⟨before, claim, after, split, chosen, none⟩ := List.findSome?_eq_some_iff.mp due
  cases chosen
  have ascend := activeClaims_ascend s
  rw [split] at ascend mem
  rcases List.mem_append.mp mem with early | late
  · simpa using none _ early
  · rcases List.mem_cons.mp late with same | late
    · cases same
      exact le_rfl
    · exact (List.pairwise_cons.mp (List.pairwise_append.mp ascend).2.1).1 _ late _ rfl _ rfl

/-- R75: where a claim of an ACTIVE station stands, a frame is due. -/
theorem dueFrame_of_claim (life : s.lifecycle = .active) {c : Option (Frame × Origin)} (mem : c ∈ activeClaims s)
    (stands : c ≠ none) : dueFrame? s ≠ none := fun idle => by
  rw [dueFrame_active life] at idle
  exact stands (List.findSome?_eq_none_iff.mp idle c mem)

/-- R66, R71: an UPDATE has an item where a request is pending or a row is due. -/
theorem updateItems_ne_nil {a : Assembler} {faultPoint : Option Point}
    (h : (∃ e ∈ a.requests, e.flying = false) ∨
      ∃ r ∈ a.rows, r.flying = none ∧ r.desired faultPoint a.faultPart ≠ r.link) :
    updateItems a faultPoint ≠ [] := by
  rw [updateItems_eq]
  simp only [ne_eq, List.take_eq_nil_iff, OfNat.ofNat_ne_zero, false_or, List.append_eq_nil_iff, List.map_eq_nil_iff]
  rintro ⟨asked, due⟩
  rcases h with ⟨e, mem, pending⟩ | ⟨r, mem, grounded, differs⟩
  · exact List.filter_eq_nil_iff.mp asked e mem (by simp [pending])
  · exact List.filter_eq_nil_iff.mp due r mem (by simp [rowDue, ContributionRow.due, grounded, differs])

/-- The first of an ascending list is its least member. -/
theorem head_least {l : List Station} {y : Station} (ascending : l.Pairwise (· < ·)) (head : l.head? = some y) :
    y ∈ l ∧ ∀ z ∈ l, y ≤ z := by
  obtain ⟨rest, rfl⟩ := List.head?_eq_some_iff.mp head
  exact ⟨List.mem_cons_self, List.forall_mem_cons.mpr ⟨le_rfl, fun z mem =>
    ((List.pairwise_cons.mp ascending).1 z mem).le⟩⟩

theorem Claims.mayCarry (h : Claims s f origin) : mayCarry s.lifecycle (frameRank f) = true := by
  cases h with
  | join life => rcases life with life | life <;> rw [life] <;> rfl
  | entry life | loss life | release life | busy life | part life | update life | rollcall life | busyAnswer life
    | sessionPart life => rw [life]; rfl

theorem Claims.sender (h : Claims s f origin) : frameSender f = s.number := by
  cases h <;> rfl

end

/-- Settles O10: the content of each claim, the order of the ranks, and the claims that make a frame due. -/
theorem lowestRankIsChosen : Obligations.LowestRankIsChosen := by
  intro s ascend
  refine ⟨fun f origin due => ?_, fun life claims => ?_, fun life slot => ?_, fun life slot => ?_, fun life slot => ?_⟩
  · have claims := dueFrame_claims due
    refine ⟨claims.mayCarry, claims.sender, fun life g o mem => dueFrame_lowest life due mem, ?_, ?_, ?_, ?_, ?_, ?_⟩
    · rintro x y rfl
      cases claims with | loss _ head => exact head_least ascend.lossSet head
    · rintro x y rfl
      cases claims with | busy _ head => exact ⟨rfl, head_least ascend.busySet head⟩
    · rintro x p rfl
      cases claims with | rollcall _ rollDue => exact ⟨rfl, rollDue, rfl⟩
    · rintro x y rfl
      cases claims with | release _ slot => exact ⟨rfl, slot⟩
    · rintro x y k body rfl
      cases claims with | part _ slot snapshot => exact ⟨rfl, slot, _, snapshot, rfl, rfl, rfl⟩
    · rintro x y tag status k n payload rfl
      cases claims with
      | busyAnswer _ slot mem => exact .inl ⟨slot, rfl, mem, rfl, rfl, rfl, rfl⟩
      | sessionPart _ slot session => exact .inr ⟨slot, _, session, rfl, rfl, rfl, rfl, rfl, rfl⟩
  · have update : updateItems s.asm s.setup.faultPoint ≠ [] → dueFrame? s ≠ none := fun items =>
      dueFrame_of_claim life (c := some (.update s.number (updateItems s.asm s.setup.faultPoint), .update))
        (by simp [activeClaims, items]) (by simp)
    have response : responseFrame? s ≠ none → dueFrame? s ≠ none :=
      dueFrame_of_claim life (by simp [activeClaims])
    rcases claims with losses | slot | owed | ⟨slot, snapshot⟩ | asked | row | rollDue | ⟨slot, session⟩ |
      ⟨y, tag, slot, mem⟩
    · exact dueFrame_of_claim life (c := s.asm.lossSet.head?.map fun t => (.loss s.number t, .loss))
        (by simp [activeClaims]) (by simpa using losses)
    · exact dueFrame_of_claim life (c := s.asm.releaseSlot.map fun t => (.release s.number t, .release))
        (by simp [activeClaims]) (by simpa using slot)
    · exact dueFrame_of_claim life (c := s.asm.busySet.head?.map fun j => (.busy s.number j, .busy j))
        (by simp [activeClaims]) (by simpa using owed)
    · exact dueFrame_of_claim life (c := (partFrame? s).map fun f => (f, .part))
        (by simp [activeClaims]) (by simpa [partFrame?, slot] using snapshot)
    · exact update (updateItems_ne_nil (.inl asked))
    · exact update (updateItems_ne_nil (.inr row))
    · exact dueFrame_of_claim life (c := some (.rollcall s.number s.ownPeriod, .rollcall))
        (by simp [activeClaims, rollDue]) (by simp)
    · obtain ⟨ss, session⟩ := Option.ne_none_iff_exists'.mp session
      exact response (by simp [responseFrame?, slot, session])
    · have entered : entryOf? y s.service.busyList ≠ none := fun none =>
        entryOf?_isNone.mp (Option.isNone_iff_eq_none.mpr none) tag mem
      obtain ⟨tag, entry⟩ := Option.ne_none_iff_exists'.mp entered
      exact response (by simp [responseFrame?, slot, entry])
  · simp only [dueFrame?, life, slot]; rfl
  · simp only [dueFrame?, life, slot]; rfl
  · simp only [dueFrame?, life, slot]; rfl

end Sys2Proof.Machine

/-! SUPPORT. The whole roster after an accepted live frame, and the silence limits and entry deadlines that are exceeded
(R79 to R83, R85, R86, R112). -/

namespace Sys2Proof.Machine

/-! ### The roster with timers (R79, R85) -/

section
variable {own : Station} {r : Roster} {t : Station}

theorem Roster.length_rosterEffect (own : Station) (timed : Bool) (f : Frame) (r : Roster) :
    (rosterEffect own timed f r).length = r.length := by
  cases f with
  | join | entry | loss | release => exact Roster.length_update ..
  | busy | image | update | rollcall | svcReq | svcRsp => rfl

/-- R79: an accepted live frame changes the entries by the table, and starts the timers that the table starts. -/
theorem rosterEffect_timed (stands : 1 ≤ t ∧ t ≤ r.length) (f : Frame) :
    (rosterEffect own true f r).entry t = entryAfter own f t (r.entry t) := by
  cases f with
  | join s k p =>
    simp only [rosterEffect, entryAfter, Roster.entry_update_of_stands stands]
    by_cases self : s = own <;> simp [RosterEntry.join, self]
  | entry s p items =>
    simp only [rosterEffect, entryAfter, Roster.entry_update_of_stands stands]
    by_cases self : s = own <;> simp [RosterEntry.enter, self]
  | loss s x =>
    simp only [rosterEffect, entryAfter, Roster.entry_update_of_stands stands]
    cases state : (r.entry t).state <;> simp [RosterEntry.lose, state]
  | release s x =>
    simp only [rosterEffect, entryAfter, Roster.entry_update_of_stands stands]
    by_cases lost : (r.entry t).state = .lost <;> simp [RosterEntry.release, lost]
  | busy | image | update | rollcall | svcReq | svcRsp => rfl

/-- R85: the silence timer of the frame's sender, where it is an ACTIVE peer, is the only one that starts. -/
theorem breakSilence_entry_of_stands (stands : 1 ≤ t ∧ t ≤ r.length) (x : Station) :
    (breakSilence own x r).entry t =
      if t = x ∧ t ≠ own ∧ (r.entry t).state = .active then { r.entry t with silence := some 0 } else r.entry t := by
  unfold breakSilence
  by_cases self : x = own
  · have notPeer : ¬ (t = x ∧ t ≠ own ∧ (r.entry t).state = .active) := fun h => h.2.1 (h.1.trans self)
    rw [if_pos self, if_neg notPeer]
  · rw [if_neg self, Roster.entry_update_of_stands stands]
    by_cases sender : t = x
    · subst sender; simp [self]
    · simp [sender]

end

/-- Settles O22: the table at the entry concerned, then the sender's silence. -/
theorem rosterTable : Obligations.RosterTable := by
  intro r own f t len station _
  have stands : 1 ≤ t ∧ t ≤ r.length := len ▸ isStation_iff.mp station
  have standsAfter : 1 ≤ t ∧ t ≤ (rosterEffect own true f r).length := by
    rw [Roster.length_rosterEffect]; exact stands
  dsimp only
  rw [breakSilence_entry_of_stands standsAfter, rosterEffect_timed stands]

/-! ### Exceeded limits (R85, R86, R112) -/

section
variable {s : State} {y : Station}

theorem silenceExceeds_iff : silenceExceeds s y = true ↔ SilenceExceeded s y := by
  simp [silenceExceeds, SilenceExceeded, HasReached, reached_iff, RosterEntry.silenceLimit, Config.silencePeriods,
    and_assoc]

theorem deadlineExceeds_iff : deadlineExceeds s y = true ↔ DeadlineExceeded s y := by
  simp [deadlineExceeds, DeadlineExceeded, HasReached, reached_iff, RosterEntry.deadlineLimit, Config.deadlinePeriods,
    and_assoc]

theorem other_of_silenceExceeded (exceeded : SilenceExceeded s y) : y ≠ s.number := exceeded.2.1

theorem other_of_deadlineExceeded (exceeded : DeadlineExceeded s y) : y ≠ s.number := exceeded.2.1

/-- The entry whose silence timer has stopped. -/
def RosterEntry.silenced (e : RosterEntry) : RosterEntry := { e with silence := none }

/-- The entry whose entry deadline has stopped. -/
def RosterEntry.undated (e : RosterEntry) : RosterEntry := { e with deadline := none }

/-- R85, R86: the station once a timer of `y` has stopped, by the change `stop`, and a LOSS of `y` is asked for. -/
def State.lossAsked (s : State) (y : Station) (stop : RosterEntry → RosterEntry) : State :=
  { s with
    roster := s.roster.update y stop
    asm := { s.asm with lossSet := insertStation y s.asm.lossSet } }

/-- R72: a LOSS of a peer is asked for. -/
theorem addLoss_update (other : y ≠ s.number) (stop : RosterEntry → RosterEntry) :
    State.addLoss { s with roster := s.roster.update y stop } y = s.lossAsked y stop := if_neg other

theorem silenceExceeded_eq (other : y ≠ s.number) :
    s.silenceExceeded y = (s.lossAsked y .silenced).checkIsolation s.roster :=
  congrArg (State.checkIsolation · s.roster) (addLoss_update other .silenced)

/-- R112: whether the stopped timer leaves the station hearing fewer peers than strays. -/
theorem lossAsked_isolated (stop : RosterEntry → RosterEntry) :
    (s.lossAsked y stop).isolatedSince s.roster = true ↔
      heardPeers s.number (s.roster.update y stop) < heardPeers s.number s.roster ∧
        heardPeers s.number (s.roster.update y stop) < s.join.stray.length := by
  rw [State.isolatedSince, State.outnumbered, Bool.and_eq_true, decide_eq_true_eq, decide_eq_true_eq]
  rfl

/-- R112: whether station `z` is a heard peer. -/
def hears (own : Station) (r : Roster) (z : Station) : Bool :=
  z ≠ own && r.stateOf z = .active && (r.entry z).silence.isSome

theorem heardPeers_eq (own : Station) (r : Roster) :
    heardPeers own r = (allStations.filter (hears own r)).length := rfl

/-- R112: with the silence timer of `y` stopped, every heard peer but `y` is heard still. -/
theorem hears_silenced {r : Roster} (stands : 1 ≤ y ∧ y ≤ r.length) (own z : Station) :
    hears own (r.update y .silenced) z = (decide (z ≠ y) && hears own r z) := by
  rw [hears, Roster.stateOf_update (f := .silenced) (fun _ => rfl), Roster.entry_update, hears]
  by_cases same : z = y
  · simp [same, stands, RosterEntry.silenced]
  · simp [same]

/-- R112: a heard peer whose silence timer stops is heard no more. -/
theorem heardPeers_silenced {own : Station} {r : Roster} (stands : 1 ≤ y ∧ y ≤ r.length)
    (station : isStation y = true) (heard : hears own r y = true) :
    heardPeers own (r.update y .silenced) < heardPeers own r := by
  rw [heardPeers_eq, heardPeers_eq, funext (hears_silenced stands own), ← List.filter_filter,
    List.length_filter_lt_length_iff_exists]
  exact ⟨y, List.mem_filter.mpr ⟨mem_allStations.mpr station, heard⟩, by simp⟩

/-- R85: an exceeded silence limit that leaves the station on the link. -/
theorem silenceExceeded_stays (other : y ≠ s.number)
    (stays : ¬ (heardPeers s.number (s.roster.update y .silenced) < heardPeers s.number s.roster ∧
      heardPeers s.number (s.roster.update y .silenced) < s.join.stray.length) ∨ s.lifecycle.participates = false) :
    s.silenceExceeded y = s.lossAsked y .silenced := by
  rw [silenceExceeded_eq other]
  rcases stays with heard | outside
  · exact checkIsolation_stays (Bool.eq_false_iff.mpr (mt (lossAsked_isolated _).mp heard))
  · exact checkIsolation_outside _ outside

/-- R112: an exceeded silence limit after which the strays outnumber the heard peers. -/
theorem silenceExceeded_detaches (exceeded : SilenceExceeded s y) (part : s.lifecycle.participates = true)
    (len : s.roster.length = 30) (station : isStation y = true)
    (larger : heardPeers s.number (s.roster.update y .silenced) < s.join.stray.length) :
    s.silenceExceeded y = (s.lossAsked y .silenced).detach (some .namedLost) := by
  obtain ⟨complete, other, active, v, runs, -⟩ := exceeded
  have heard : hears s.number s.roster y = true := by simp [hears, other, active, runs]
  have fewer := heardPeers_silenced (len ▸ isStation_iff.mp station) station heard
  have part' : (s.lossAsked y .silenced).lifecycle.participates = true := part
  have complete' : (s.lossAsked y .silenced).image.standing = .complete := complete
  rw [silenceExceeded_eq other, State.checkIsolation, part', complete', (lossAsked_isolated _).mpr ⟨fewer, larger⟩]
  rfl

/-- R85: the expiry of a silence limit that is exceeded. -/
theorem exec_silenceLimit (exceeded : SilenceExceeded s y) :
    exec (.silenceLimit y) s = (s.silenceExceeded y).answer :=
  congrArg State.answer (if_pos (silenceExceeds_iff.mpr exceeded))

/-- R86: the expiry of an entry deadline that is exceeded. -/
theorem exec_entryDeadline (exceeded : DeadlineExceeded s y) :
    exec (.entryDeadline y) s = (s.lossAsked y .undated).answer := by
  rw [← addLoss_update (other_of_deadlineExceeded exceeded)]
  exact congrArg State.answer (if_pos (deadlineExceeds_iff.mpr exceeded))

end

/-- Settles O44: the silence limit without and with the detach of R112, then the entry deadline; where neither is
exceeded, the expiry is stale. -/
theorem exceededLimitsAskForLoss : Obligations.ExceededLimitsAskForLoss := by
  intro s y
  refine ⟨fun exceeded => ⟨fun stays => ?_, fun part len station larger closed => ?_⟩,
    fun stale => settles_of_stale (mt silenceExceeds_iff.mp stale), fun exceeded => ?_,
    fun stale => settles_of_stale (mt deadlineExceeds_iff.mp stale)⟩
  · rw [exec_silenceLimit exceeded, silenceExceeded_stays (other_of_silenceExceeded exceeded) stays]
    exact answer_settles _
  · refine detachesWith_of_detach (u := s.lossAsked y .silenced) ?_ ⟨rfl, rfl, rfl, rfl, rfl, rfl⟩ closed rfl rfl id
    rw [exec_silenceLimit exceeded, silenceExceeded_detaches exceeded part len station larger]
  · rw [exec_entryDeadline exceeded]
    exact answer_settles _

end Sys2Proof.Machine

/-! SUPPORT. The end of the listen period, the rejoin holdoff, and the joins that go on with the next candidate or fail
(R95 to R98, R104, R107, R108, R113 to R115). -/

namespace Sys2Proof.Machine

section
variable {s u : State}

/-! ### The listen period and the rejoin holdoff (R95, R97, R114) -/

/-- R97: the expiry of a listen period that has reached its limit. -/
theorem exec_listenPeriodExpiry (life : s.lifecycle = .listen)
    (due : HasReached s.join.listenTimer (4 * s.setup.period)) :
    exec .listenPeriodExpiry s = s.endListening.answer :=
  congrArg State.answer (if_pos (due_iff.mpr ⟨life, due⟩))

/-- R114: the expiry of a rejoin holdoff that has reached its limit. -/
theorem exec_rejoinHoldoffExpiry (life : s.lifecycle = .detached)
    (due : HasReached s.join.holdoff (2 * s.setup.period + s.number)) :
    exec .rejoinHoldoffExpiry s = s.returnToListen.answer :=
  congrArg State.answer (if_pos (due_iff.mpr ⟨life, due⟩))

/-- This station when its listen period is over (R97). -/
def State.listenEnded (s : State) : State := { s with join := { s.join with listenTimer := none } }

/-- R97: the station joins the lowest candidate. -/
theorem endListening_candidate {c : Station} {rest : List Station} (heard : s.join.candidates = c :: rest) :
    s.endListening = s.listenEnded.handJoin c := by
  simp only [State.endListening, State.listenEnded, heard]

/-- R97: without a candidate the mark of activity decides. -/
theorem endListening_alone (heard : s.join.candidates = []) :
    s.endListening = if s.join.activity then s.listenEnded.returnToListen else s.listenEnded.found := by
  simp only [State.endListening, State.listenEnded, heard]

/-- R95: a return that is not the fourth. -/
theorem returnToListen_again (few : s.join.attempts < 3) : s.returnToListen = s.enterListen (s.join.attempts + 1) :=
  if_pos few

/-- R95, R115: the fourth return in a row leads to LINK-FAULT. -/
theorem returnToListen_fourth (fourth : s.join.attempts = 3) :
    s.returnToListen = s.toLinkFault .attemptsExhausted :=
  if_neg (by simp [fourth])

/-- R95, R115: what the fourth return leaves, and the fault that it reports. -/
theorem fourthReturn_leaves {c : Instr} (exec_eq : exec c s = u.returnToListen.answer) (fourth : u.join.attempts = 3)
    (same : SameStation s u) (fault : u.fault = s.fault) (life : u.lifecycle = s.lifecycle) :
    ∃ t, exec c s = .next t ∧ LeftLink s t .linkFault none ∧ t.fault.line = true ∧
      (s.fault.record = none → t.fault.record = some ⟨.attemptsExhausted, none, s.timeBase, s.lifecycle⟩) := by
  obtain ⟨-, line, writes⟩ := toLinkFault_record fault same.timeBase life .attemptsExhausted
  rw [returnToListen_fourth fourth] at exec_eq
  exact ⟨_, exec_eq, toLinkFault_leaves same _, line, writes⟩

end

/-- Settles O31: the listen period by its candidates and its activity mark, then the holdoff, each return by the
attempts before it. -/
theorem listenPeriodAndHoldoffDecide : Obligations.ListenPeriodAndHoldoffDecide := by
  intro s
  refine ⟨fun life due => ?_, fun life due => ?_⟩
  · have expiry := exec_listenPeriodExpiry life due
    have like : SameStation s s.listenEnded := ⟨rfl, rfl, rfl, rfl, rfl, rfl⟩
    refine ⟨fun c rest heard => ?_, fun none quiet => ?_, fun none active few => ?_, fun none active fourth => ?_⟩
    · rw [expiry, endListening_candidate heard]
      exact answer_settles _
    · rw [expiry, endListening_alone none, quiet]
      exact answer_settles _
    · have again := returnToListen_again (s := s.listenEnded) few
      rw [expiry, endListening_alone none, if_pos active, again, State.enterListen, ← life]
      exact answer_settles _
    · rw [endListening_alone none, if_pos active] at expiry
      rw [← life]
      exact fourthReturn_leaves expiry fourth like rfl rfl
  · have expiry := exec_rejoinHoldoffExpiry life due
    refine ⟨fun few => ?_, fun fourth => ?_⟩
    · rw [expiry, returnToListen_again few]
      exact answer_settles _
    · rw [← life]
      exact fourthReturn_leaves expiry fourth (.refl s) rfl rfl

end Sys2Proof.Machine

/-! SUPPORT. The commit of this station's own JOIN (R21, R53, R73, R77, R98, R103). -/

namespace Sys2Proof.Machine

section
variable {s : State} {k p : Nat}

/-- R103: a listener or joiner that has become JOINING, by the state `u` in which its founding image has taken the
JOIN. -/
theorem deliver_ownJoin (life : s.lifecycle = .listen ∨ s.lifecycle = .joining ∧ s.image.standing = .none) :
    s.deliver (.join s.number k p) true =
      (if s.image.standing = .founding then s.applyFounding (.join s.number k p) else s).becomeJoining k := by
  rcases life with life | ⟨life, standing⟩
  · simp [State.deliver, life, State.deliverListening]
  · simp [State.deliver, life, standing, State.deliverJoiner]

/-- R21, R98: a founding image takes this station's own JOIN, which hands nothing on. -/
theorem applyFounding_ownJoin : s.applyFounding (.join s.number k p) =
    { s with
      image := { s.image with points := frameEffect s.roster (.join s.number k p) s.image.points }
      roster := rosterEffect s.number false (.join s.number k p) s.roster } := by
  have own : s.mismatchReport (.join s.number k p) = [] := by simp [State.mismatchReport, periodMismatch?, frameSender]
  rw [State.applyFounding, if_pos (accepts_join rfl s.roster), own, State.post, List.append_nil]

/-- R66, R70, R73, R74: COMMITTED at the assembler for a JOIN. -/
def State.joinSettled (u : State) : State :=
  { u with asm := { u.asm with
    rollDue := false
    joinSlot := none
    rows := rowsCommitted u.asm.rows
    requests := requestsCommitted u.asm.requests } }

theorem settleCommitted_join (u : State) (x : Station) (wasLost : Bool) :
    u.settleCommitted ⟨.join x k p, .joinSlot, false⟩ wasLost = u.joinSettled := rfl

/-- R53, R73, R77, R103: this station's own JOIN, which hands nothing on and leaves no image complete. -/
theorem exec_ownJoin (h : OwnFrame s ⟨.join s.number k p, .joinSlot, false⟩) (onMedium : s.lifecycle.onMedium = true)
    {u : State} (delivered : s.ownSlotClosed.deliver (.join s.number k p) true = u) (quiet : u.Quiet)
    (incomplete : u.image.standing ≠ .complete) : exec (.join s.number k p) s = .next u.joinSettled := by
  have path := commitFrame_own h onMedium
  rw [delivered, someTasks_quiet quiet, settleCommitted_join,
    checkIsolation_incomplete (s := u.joinSettled) _ incomplete] at path
  rw [exec_frame rfl, path, State.answer, finish_quiet (s := u.joinSettled) quiet]

end

/-- Settles O33: the path of the JOIN, with and without a founding image. -/
theorem ownJoinStartsTheTransfer : Obligations.OwnJoinStartsTheTransfer := by
  intro s k p h quiet stands
  have onMedium : s.lifecycle.onMedium = true := by rcases stands with ⟨life, -⟩ | ⟨life, -⟩ <;> rw [life] <;> rfl
  have delivered := deliver_ownJoin (s := s.ownSlotClosed) (k := k) (p := p) (stands.imp_left And.left)
  by_cases founding : s.image.standing = .founding
  · rw [if_pos (show s.ownSlotClosed.image.standing = .founding from founding),
      applyFounding_ownJoin (s := s.ownSlotClosed)] at delivered
    have joins := exec_ownJoin h onMedium delivered quiet (by simp [State.becomeJoining, State.ownSlotClosed, founding])
    simpa only [State.becomeJoining, State.ownSlotClosed, State.joinSettled, State.number, founding, if_true] using joins
  · have incomplete : s.image.standing ≠ .complete := by
      rcases stands with ⟨-, standing | standing⟩ | ⟨-, standing⟩ <;> simp [standing]
    rw [if_neg (show ¬ s.ownSlotClosed.image.standing = .founding from founding)] at delivered
    have joins := exec_ownJoin h onMedium delivered quiet
      (by simpa [State.becomeJoining, State.ownSlotClosed, founding] using incomplete)
    simpa only [State.becomeJoining, State.ownSlotClosed, State.joinSettled, founding, if_false] using joins

end Sys2Proof.Machine

/-! SUPPORT. The joins that go on with the next candidate, that complete from the founding image or that fail (R104, R107,
R108, R113). -/

namespace Sys2Proof.Machine

section
variable {s u : State} {c : Instr} {x : Station}

/-! ### The timers of a joiner (R104) -/

/-- R104: the expiry of an answer timer that has reached its limit. -/
theorem exec_answerTimerExpiry (life : s.lifecycle = .joining)
    (due : HasReached s.join.answerTimer (2 * s.setup.period)) :
    exec .answerTimerExpiry s = s.answerExpires.answer :=
  congrArg State.answer (if_pos (due_iff.mpr ⟨life, due⟩))

/-- R104: the expiry of a part gap that has been exceeded. -/
theorem exec_partGapExpiry (life : s.lifecycle = .joining) (due : HasReached s.join.gapTimer (2 * s.setup.period + 1)) :
    exec .partGapExpiry s = s.nextCandidate.answer :=
  congrArg State.answer (if_pos (due_iff.mpr ⟨life, due⟩))

/-- R104: the answer timer of a named respondent. -/
theorem answerExpires_named (named : s.join.respondent = some x) : s.answerExpires = s.nextCandidate :=
  if_neg (by simp [named])

/-- R107: the answer timer of a founder that nobody has answered. -/
theorem answerExpires_founder (unanswered : s.join.respondent = none) (frozen : s.image.standing = .frozen) :
    s.answerExpires = s.completeFromFounding :=
  if_pos (by simp [unanswered, frozen])

/-! ### The next candidate (R104) -/

/-- R104: the joiner that awaits the re-JOIN it has handed in to `n`. -/
def State.rejoining (s : State) (n : Station) : State :=
  { s with
    join := { s.join with
      parts := []
      backlog := []
      answerTimer := none
      gapTimer := none
      awaiting := true
      choice := n }
    asm := { s.asm with joinSlot := some .join } }

theorem nextCandidate_found {n : Station} (named : s.join.respondent = some x)
    (next : s.join.candidates.find? (fun y => x < y) = some n) : s.nextCandidate = s.rejoining n := by
  simp only [State.nextCandidate, nextCandidate?, State.handJoin, State.rejoining, named, next]

theorem nextCandidate_exhausted (named : s.join.respondent = some x)
    (last : s.join.candidates.find? (fun y => x < y) = none) : s.nextCandidate = s.detach none := by
  simp only [State.nextCandidate, nextCandidate?, named, last]

/-- R104: a founder has no candidate to go on with. -/
theorem nextCandidate_unnamed (unnamed : s.join.respondent = none) : s.nextCandidate = s.detach none := by
  simp only [State.nextCandidate, nextCandidate?, unnamed]

/-- A joiner without an image has none after it has moved on, or has detached. -/
theorem nextCandidate_incomplete (incomplete : s.image.standing ≠ .complete) :
    s.nextCandidate.image.standing ≠ .complete := by
  unfold State.nextCandidate
  split
  · exact incomplete
  · rw [detach_image]
    decide

/-- R104: the path of a BUSY that a joiner heeds. -/
theorem exec_busy_heeded (awake : s.loader.held = false) (life : s.lifecycle = .joining)
    (notOwn : s.commit.flownAs? (.busy x s.number) = none)
    (ok : s.received? (.busy x s.number) = some (.ok (.busy x s.number))) (other : x ≠ s.number)
    (incomplete : s.image.standing ≠ .complete) (listens : s.join.awaiting = false)
    (heeded : s.join.respondent = some x ∨ s.join.respondent = none) :
    exec (.busy x s.number) s = s.slotClosed.nextCandidate.answer := by
  have self : s.slotClosed.number = s.number := rfl
  have taken : s.slotClosed.takeBusy x = s.slotClosed.nextCandidate := by
    have listens' : s.slotClosed.join.awaiting = false := listens
    have heeded' : s.slotClosed.join.respondent = some x ∨ s.slotClosed.join.respondent = none := heeded
    rcases heeded' with h | h <;> simp [State.takeBusy, h, listens']
  have delivered : s.slotClosed.deliverJoiner (.busy x s.number) false = s.slotClosed.nextCandidate := by
    simp [State.deliverJoiner, namesLost, self, taken]
  rw [exec_frame rfl, commitFrame_joiner awake life notOwn ok other incomplete, delivered,
    checkIsolation_incomplete _ (nextCandidate_incomplete (s := s.slotClosed) incomplete)]

/-! ### Joins that fail (R104, R107, R113) -/

/-- R113: the station that detaches without a report, seen from a state `s` with the same pins, queue and configuration;
the fault record stays. -/
theorem detach_none_detached (exec_eq : exec c s = (u.detach none).answer) (same : SameStation s u)
    (fault : u.fault = s.fault) (closed : u.service.restartOpen = false) :
    ∃ t, exec c s = .next t ∧ Detached s t ∧ ∀ r, s.fault.record = some r → t.fault.record = some r := by
  rw [detach_none closed] at exec_eq
  have toEnd : KeepsRecord u (u.someTasks.leaveLink .detached (some 0)).finish :=
    keepsRecord_carried.trans (keepsRecord_carried.someTasks u) fun r h => finish_keepsRecord _ r h
  exact ⟨_, exec_eq, leaveLink_finish (same.trans (someTasks_untouched u).sameStation) _ (.inl rfl),
    fun r h => toEnd r (fault ▸ h)⟩

end

/-- Settles O37: the three commands move the joiner to its next candidate, or the join fails. -/
theorem joinerMovesToItsNextCandidate : Obligations.JoinerMovesToItsNextCandidate := by
  intro s c x life standing awake closed named event
  have incomplete : s.image.standing ≠ .complete := by simp [standing]
  set unit := if c = .busy x s.number then s.commit.afterPeer else s.commit
  have moves : exec c s = (State.nextCandidate { s with commit := unit }).answer := by
    rcases event with ⟨rfl, notOwn, ok, other, listens⟩ | ⟨rfl, due⟩ | ⟨rfl, due⟩
    · rw [exec_busy_heeded awake life notOwn ok other incomplete listens (.inl named),
        show unit = s.commit.afterPeer from if_pos rfl]
      rfl
    · exact exec_partGapExpiry life due
    · rw [exec_answerTimerExpiry life due, answerExpires_named named]
      rfl
  refine ⟨fun n next => ?_, fun last => ?_⟩
  · rw [moves, nextCandidate_found (s := { s with commit := unit }) named next]
    exact answer_settles _
  · rw [nextCandidate_exhausted (s := { s with commit := unit }) named last] at moves
    exact detach_none_detached moves ⟨rfl, rfl, rfl, rfl, rfl, rfl⟩ rfl closed

/-! ### The founding image (R107, R108) -/

section
variable {s : State}

/-- The replay of a founder's backlog over its FROZEN image (R107). -/
def State.foundingReplay (s : State) : Replay := replayBacklog s.number true s.image.points s.roster s.join.backlog

/-- R108: a sound founding image completes. -/
theorem completeFromFounding_sound (sound : s.join.spoiled = false) (replayed : s.foundingReplay.spoiled = false) :
    s.completeFromFounding = completed s s.foundingReplay := by
  rw [State.completeFromFounding, if_neg (by simp [sound])]
  exact if_neg (Bool.eq_false_iff.mp replayed)

/-- R107: a spoiled founding image is given up; what the replay has come to report is handed on. -/
theorem completeFromFounding_spoiled (spoiled : s.join.spoiled = true ∨ s.foundingReplay.spoiled = true) :
    ∃ l, s.completeFromFounding = State.detach (s.post l).giveUpFounding none := by
  by_cases before : s.join.spoiled = true
  · refine ⟨[], (if_pos before).trans ?_⟩
    rw [State.post, List.append_nil]
  · exact ⟨_, (if_neg before).trans (if_pos (spoiled.resolve_left before))⟩

end

/-- Settles O38: the answer timer by what has become of the founding image, then the BUSY. -/
theorem founderCompletesFromItsImage : Obligations.FounderCompletesFromItsImage := by
  intro s life frozen unanswered
  have expires := answerExpires_founder unanswered frozen
  refine ⟨fun due sound replayed => ?_, fun due spoiled closed => ?_,
    fun x awake notOwn ok other listens closed => ?_⟩
  · rw [exec_answerTimerExpiry life due, expires, completeFromFounding_sound sound replayed]
    exact answer_settlesBy _
  · obtain ⟨l, fails⟩ := completeFromFounding_spoiled spoiled
    refine detach_none_detached (u := (s.post l).giveUpFounding) ?_ ⟨rfl, rfl, rfl, rfl, rfl, rfl⟩ rfl closed
    rw [exec_answerTimerExpiry life due, expires, fails]
  · have heeds := exec_busy_heeded awake life notOwn ok other (by simp [frozen]) listens (.inr unanswered)
    rw [nextCandidate_unnamed (s := s.slotClosed) unanswered] at heeds
    exact detach_none_detached heeds ⟨rfl, rfl, rfl, rfl, rfl, rfl⟩ rfl closed

end Sys2Proof.Machine

/-! SUPPORT. The gates by the lifecycle, and the events that fire no term (R110, R120, R122, R123, R125, R128). -/

namespace Sys2Proof.Machine

/-! ### The states of the gates (R122, R123) -/

section
variable {setup : StationSetup} {src : Sources} {g0 : GateState}

/-- A gate is CLOSED, or has the state of G0. -/
theorem gateState_closed_or (fuel g : Nat) :
    gateState setup src g0 fuel g = .closed ∨ gateState setup src g0 fuel g = g0 := by
  induction fuel generalizing g with
  | zero => exact .inl rfl
  | succ fuel ih =>
    unfold gateState
    dsimp only
    split_ifs
    · exact .inr rfl
    · exact ih _
    · exact .inl rfl

/-- R123: a gate other than G0, by its enable literal. -/
theorem gateState_succ {g : Nat} (notG0 : g ≠ 0) (fuel : Nat) :
    gateState setup src g0 (fuel + 1) g = match (setup.gate g).enable with
      | some l => if l.on src then gateState setup src g0 fuel (setup.gate g).parent else .closed
      | none => gateState setup src g0 fuel (setup.gate g).parent := by
  rw [gateState, if_neg notG0]
  dsimp only
  cases (setup.gate g).enable <;> simp

/-- R122: the state of a gate whose chain reaches G0 in `k` steps is found in more than `k`. -/
theorem gateState_fuel {k g fuel more : Nat} (chain : (parentOf setup)^[k] g = 0) (enough : k < fuel)
    (enough' : k < more) : gateState setup src g0 fuel g = gateState setup src g0 more g := by
  induction k generalizing g fuel more with
  | zero =>
    obtain ⟨fuel, rfl⟩ := Nat.exists_eq_add_one_of_ne_zero (Nat.ne_of_gt enough)
    obtain ⟨more, rfl⟩ := Nat.exists_eq_add_one_of_ne_zero (Nat.ne_of_gt enough')
    obtain rfl : g = 0 := chain
    rfl
  | succ k ih =>
    obtain ⟨fuel, rfl⟩ := Nat.exists_eq_add_one_of_ne_zero (Nat.ne_zero_of_lt enough)
    obtain ⟨more, rfl⟩ := Nat.exists_eq_add_one_of_ne_zero (Nat.ne_zero_of_lt enough')
    by_cases isG0 : g = 0
    · subst isG0; rfl
    · have parent : (parentOf setup)^[k] (setup.gate g).parent = 0 := by
        rwa [Function.iterate_succ_apply, parentOf, if_neg isG0] at chain
      rw [gateState_succ isG0, gateState_succ isG0, ih parent (by omega) (by omega : k < more)]

end

section
variable {setup : StationSetup} {src : Sources} {life : Lifecycle} {standing : Standing} {n : Nat}

/-- A gate of the nine that the evaluator holds. -/
theorem gateStates_getD (low : n ≤ 8) : (gateStates setup src life standing).getD n .closed =
    gateState setup src (stationGate life standing) 9 n := by
  simp [gateStates, List.getD_eq_getElem?_getD, Nat.lt_succ_of_le low]

/-- R123: every gate is CLOSED, or has the state of G0. -/
theorem gateStates_closed_or (n : Nat) : (gateStates setup src life standing).getD n .closed = .closed ∨
    (gateStates setup src life standing).getD n .closed = stationGate life standing := by
  by_cases low : n ≤ 8
  · rw [gateStates_getD low]
    exact gateState_closed_or 9 n
  · refine .inl ?_
    rw [List.getD_eq_getElem?_getD, List.getElem?_eq_none (by simp [gateStates]; omega)]
    rfl

/-- R123: G0 by the lifecycle and the standing. -/
theorem stationGate_eq (life : Lifecycle) (standing : Standing) : stationGate life standing =
    if life = .active then .opened else if life = .joining ∧ standing = .complete then .preview else .closed := by
  cases life <;> simp [stationGate]

/-- R110, R123: outside ACTIVE no gate is OPEN. -/
theorem gateStates_notOpen (off : life ≠ .active) (n : Nat) :
    (gateStates setup src life standing).getD n .closed ≠ .opened := by
  rcases gateStates_closed_or (setup := setup) (src := src) (life := life) (standing := standing) n with h | h <;>
    rw [h]
  · simp
  · rw [stationGate_eq, if_neg off]
    split <;> simp

/-- R122, R123: a gate of a checked configuration, by its enable literal and its parent. -/
theorem gateStates_parent (low : 1 ≤ n) (high : n ≤ 8) (chain : (parentOf setup)^[3] n = 0)
    (parent : (setup.gate n).parent ≤ 8) :
    (gateStates setup src life standing).getD n .closed = match (setup.gate n).enable with
      | some l => if l.on src then (gateStates setup src life standing).getD (setup.gate n).parent .closed else .closed
      | none => (gateStates setup src life standing).getD (setup.gate n).parent .closed := by
  have notG0 : n ≠ 0 := Nat.ne_of_gt low
  have chain' : (parentOf setup)^[2] (setup.gate n).parent = 0 := by
    rwa [Function.iterate_succ_apply, parentOf, if_neg notG0] at chain
  rw [gateStates_getD high, gateStates_getD parent, gateState_succ notG0,
    gateState_fuel (more := 9) chain' (by decide) (by decide)]

end

/-! ### The terms that fire in a pass (R120, R125, R128) -/

/-- R125: the gates that open in a pass. -/
def gatesOpening (ctx : EvalContext) (p : PassState) : List Nat :=
  let gates := gateStates ctx.setup p.eval.src ctx.life ctx.standing
  ((List.range 9).filter fun g => gates.getD g .closed ≠ p.eval.gates.getD g .closed).filter
    fun g => gates.getD g .closed = .opened

/-- R125: the gates that open in a pass, each with whether it reopens QUIET. -/
def gatesOpened (ctx : EvalContext) (p : PassState) : List (Nat × Bool) :=
  (gatesOpening ctx p).map fun g => (g, (gatesOpening ctx p).contains 0 || p.opened.any (fun g => g.1 = 0) ||
    g = 0 || (ctx.setup.gate g).mode = .quiet)

theorem evalPass_opened (ctx : EvalContext) (changed : List Source) (p : PassState) :
    (evalPass ctx changed p).opened = p.opened ++ gatesOpened ctx p := rfl

theorem mem_gatesOpening {ctx : EvalContext} {p : PassState} {g : Nat}
    (opened : (gateStates ctx.setup p.eval.src ctx.life ctx.standing).getD g .closed = .opened)
    (shut : p.eval.gates.getD g .closed ≠ .opened) : g ∈ gatesOpening ctx p := by
  have low : g < 9 := by
    by_contra high
    rw [List.getD_eq_getElem?_getD, List.getElem?_eq_none (by simp [gateStates]; omega)] at opened
    cases opened
  refine List.mem_filter.mpr ⟨List.mem_filter.mpr ⟨List.mem_range.mpr low, decide_eq_true ?_⟩, decide_eq_true opened⟩
  rw [opened]
  exact shut.symm

/-- What is listed of the terms, at the place of one of them. -/
theorem getD_map_zipIdx {α β : Type} {l : List α} {i : Nat} {a : α} (at_i : l[i]? = some a) (f : α × Nat → β) (d : β) :
    (l.zipIdx.map f).getD i d = f (a, i) := by
  simp [List.getD_eq_getElem?_getD, List.getElem?_zipIdx, at_i]

/-- R120, R125: a request of a pass is that of a term in an OPEN gate, whose result is ON and whose remembered result,
as the gates that open have set it, is OFF. -/
theorem mem_evalPass_requests {ctx : EvalContext} {changed : List Source} {p : PassState} {r : EdgeRequest}
    (mem : r ∈ (evalPass ctx changed p).requests) : r ∈ p.requests ∨
      ∃ (i : Nat) (t : Term) (result : Bool), ctx.setup.terms[i]? = some t ∧ t.target.isRequest = true ∧
        (gateStates ctx.setup p.eval.src ctx.life ctx.standing).getD t.gate .closed = .opened ∧ result = true ∧
        reopenRemembered (gatesOpened ctx p) t result (p.eval.remembered.getD i false) = false := by
  simp only [evalPass, List.mem_append, List.mem_filterMap] at mem
  refine mem.imp_right ?_
  rintro ⟨⟨t, i⟩, at_i, fired⟩
  have at_i : ctx.setup.terms[i]? = some t := List.mem_zipIdx_iff_getElem?.mp at_i
  simp only [getD_map_zipIdx at_i, fires] at fired
  obtain ⟨acts, -⟩ := Option.ite_none_right_eq_some.mp fired
  simp only [Bool.and_eq_true, Bool.not_eq_true', decide_eq_true_eq] at acts
  obtain ⟨-, ⟨⟨request, opened⟩, result⟩, remembered⟩ := acts
  exact ⟨i, t, _, at_i, request, opened, result, remembered⟩

/-- R110, R120: outside ACTIVE a pass fires no term. -/
theorem evalPass_notActive {ctx : EvalContext} (off : ctx.life ≠ .active) (changed : List Source) {p : PassState}
    (none : p.requests = []) : (evalPass ctx changed p).requests = [] := by
  refine List.eq_nil_iff_forall_not_mem.mpr fun r mem => ?_
  rcases mem_evalPass_requests mem with before | ⟨i, t, result, -, -, opened, -⟩
  · exact absurd (none ▸ before) (List.not_mem_nil)
  · exact gateStates_notOpen off t.gate opened

/-- R110, R120: outside ACTIVE no event fires a term. -/
theorem takeEvent_notActive {ctx : EvalContext} (off : ctx.life ≠ .active) (event : EvalEvent) (e : Evaluator) :
    (takeEvent ctx event e).requests = [] :=
  takeEvent_keeps (P := fun _ rs => rs = []) (fun _ => rfl) (fun changed _ _ => evalPass_notActive off changed rfl)
    (fun changed _ none => evalPass_notActive off changed none) fun _ _ _ none => none

/-! ### The opening of G0 (R120, R125, R130) -/

section
variable {ctx : EvalContext} {p : PassState}

/-- R125: a term whose gate reopens QUIET remembers its result. -/
theorem reopenRemembered_quiet {opened : List (Nat × Bool)} {t : Term} {result remembered : Bool}
    (request : t.target.isRequest = true) (found : opened.find? (fun g => g.1 = t.gate) = some (t.gate, true)) :
    reopenRemembered opened t result remembered = result := by
  simp [reopenRemembered, request, found]

/-- R110, R125: when G0 opens, every gate that is OPEN has opened with it, and reopens QUIET. -/
theorem gatesOpened_quiet (life : ctx.life = .active) (shut : ∀ g ∈ p.eval.gates, g ≠ .opened) {g : Nat}
    (opened : (gateStates ctx.setup p.eval.src ctx.life ctx.standing).getD g .closed = .opened) :
    (gatesOpened ctx p).find? (fun o => o.1 = g) = some (g, true) := by
  have before : ∀ n, p.eval.gates.getD n .closed ≠ .opened := by
    intro n
    rw [List.getD_eq_getElem?_getD]
    cases at_n : p.eval.gates[n]? with
    | none => simp
    | some a => exact shut a (List.mem_of_getElem? at_n)
  have entering : (gatesOpening ctx p).contains 0 = true := by
    refine List.contains_iff_mem.mpr (mem_gatesOpening ?_ (before 0))
    rw [gateStates_getD (Nat.zero_le 8), life]
    rfl
  have mem := mem_gatesOpening opened (before g)
  rw [gatesOpened, List.find?_map]
  simp only [entering, Bool.true_or]
  cases found : (gatesOpening ctx p).find? ((fun o : Nat × Bool => decide (o.1 = g)) ∘ fun g => (g, true)) with
  | none => exact absurd (List.find?_eq_none.mp found g mem) (by simp)
  | some n =>
    obtain rfl : n = g := by simpa using List.find?_some found
    rfl

/-- R120, R125: the pass in which G0 opens fires no term. -/
theorem evalPass_entering (life : ctx.life = .active) (shut : ∀ g ∈ p.eval.gates, g ≠ .opened)
    (none : p.requests = []) (changed : List Source) : (evalPass ctx changed p).requests = [] := by
  refine List.eq_nil_iff_forall_not_mem.mpr fun r mem => ?_
  rcases mem_evalPass_requests mem with before | ⟨i, t, result, -, request, opened, on, off⟩
  · exact absurd (none ▸ before) List.not_mem_nil
  · rw [reopenRemembered_quiet request (gatesOpened_quiet life shut opened), on] at off
    cases off

/-- R119, R130: without MARKER terms a pass changes no marker, so none joins the cascade list. -/
theorem evalPass_cascade (unmarked : ∀ t ∈ ctx.setup.terms, ∀ n, t.target ≠ .marker n) (empty : p.cascade = [])
    (changed : List Source) : (evalPass ctx changed p).cascade = [] := by
  have kept : ∀ touched results gates n v,
      settleTarget ctx.setup.terms touched results gates (.marker n) v = v := by
    intro touched results gates n v
    refine if_neg ?_
    simp only [List.any_eq_true, Bool.and_eq_true, decide_eq_true_eq, not_exists, not_and]
    rintro ⟨t, i⟩ mem target
    exact absurd target (unmarked t (List.fst_mem_of_mem_zipIdx mem) n)
  simp [evalPass, empty, kept]

theorem evalCascade_empty (empty : p.cascade = []) : ∀ fuel, evalCascade ctx fuel p = p
  | 0 => rfl
  | fuel + 1 => by simp [evalCascade, empty]

/-- R120, R125, R126: the lifecycle event at which G0 opens fires no term, where no marker cascade follows. -/
theorem takeEvent_entering {e : Evaluator} (life : ctx.life = .active) (shut : ∀ g ∈ e.gates, g ≠ .opened)
    (unmarked : ∀ t ∈ ctx.setup.terms, ∀ n, t.target ≠ .marker n) : (takeEvent ctx .lifecycle e).requests = [] := by
  unfold takeEvent
  rw [if_neg (by simp [EvalEvent.isIdle])]
  dsimp only
  rw [evalCascade_empty (evalPass_cascade unmarked rfl _)]
  refine evalPass_entering life ?_ rfl _
  exact shut

end

/-- Settles O51: the gates by the chain of each to G0, the events outside ACTIVE, and the one at which G0 opens. -/
theorem gatesFollowTheLifecycle : Obligations.GatesFollowTheLifecycle := by
  refine ⟨fun setup src life standing n => ⟨?_, fun low high chain parent => gateStates_parent low high chain parent,
    fun off => gateStates_notOpen off n, fun shut => ?_, fun event e off => takeEvent_notActive off event e⟩,
    fun ctx e life shut unmarked => takeEvent_entering life shut unmarked⟩
  · dsimp only
    rw [gateStates_getD (Nat.zero_le 8), ← stationGate_eq]
    rfl
  · dsimp only at shut ⊢
    rw [gateStates_getD (Nat.zero_le 8)] at shut
    rcases gateStates_closed_or (setup := setup) (src := src) (life := life) (standing := standing) n with h | h
    · exact h
    · exact h.trans shut

end Sys2Proof.Machine

/-! SUPPORT. What a RESTART keeps as it finds it, and the station that has performed one (R113, R133, R158, R164, R174,
R177, R183). -/

namespace Sys2Proof.Machine

/-! ### A FROZEN ring under hand-offs (R161 to R163) -/

/-- A FROZEN ring stays as it is. -/
def KeepsFrozen (s t : State) : Prop := s.capture.mode = .frozen → t.capture = s.capture

theorem takeTrigger_frozen {c : CaptureUnit} (frozen : c.mode = .frozen) (count : Nat) : c.takeTrigger count = c :=
  if_neg (by simp [frozen])

theorem addGroup_frozen {c : CaptureUnit} (frozen : c.mode = .frozen) (stamp : Word16) (bodies : List RecordBody) :
    c.addGroup stamp bodies = c :=
  if_pos (by simp [frozen])

theorem takeReport_keepsFrozen (s : State) (kind : FaultKind) (subject : Option Subject) (life : Lifecycle) :
    KeepsFrozen s (s.takeReport kind subject life) := by
  intro frozen
  unfold State.takeReport
  rw [faultLineMoved_capture]
  split
  · exact takeTrigger_frozen frozen _
  · rfl

theorem keepsFrozen_carried : Carried KeepsFrozen where
  refl _ _ := rfl
  trans h k frozen := (k ((h frozen).symm ▸ frozen)).trans (h frozen)
  free _ _ _ := rfl
  agenda _ _ _ := rfl
  echoes _ _ _ := rfl
  eval _ _ _ := rfl
  timers _ _ _ := rfl
  report := takeReport_keepsFrozen
  trigger _ frozen := takeTrigger_frozen frozen _
  group _ _ frozen := addGroup_frozen frozen _ _
  request s r := by
    unfold State.takeEdgeRequest
    split
    · exact fun _ => rfl
    · exact fun _ => rfl
    · split
      · exact fun _ => rfl
      · exact takeReport_keepsFrozen s _ _ _
    all_goals exact fun _ => rfl
  output _ _ _ _ := rfl
  field _ _ := rfl
  desired _ _ _ _ := rfl

/-! ### What a RESTART finds (R155, R160, R164, R183) -/

/-- What a RESTART keeps of a station is in `u` as it was in `s`. -/
structure Outlasts (s u : State) : Prop where
  pending  : u.pending = s.pending
  timeBase : u.timeBase = s.timeBase
  inputs   : u.field.inputs = s.field.inputs
  record   : KeepsRecord s u
  frozen   : KeepsFrozen s u

theorem Outlasts.refl (s : State) : Outlasts s s := ⟨rfl, rfl, rfl, fun _ h => h, fun _ => rfl⟩

/-- What is taken of the hand-offs leaves it. -/
theorem Outlasts.carried {s u v : State} (h : Outlasts s u)
    (taken : ∀ {R : State → State → Prop}, Carried R → R u v) : Outlasts s v := by
  have untouched := taken untouched_carried
  exact ⟨untouched.pending.trans h.pending, untouched.timeBase.trans h.timeBase, untouched.inputs.trans h.inputs,
    keepsRecord_carried.trans h.record (taken keepsRecord_carried),
    keepsFrozen_carried.trans h.frozen (taken keepsFrozen_carried)⟩

/-! ### An event that moves nothing (R129) -/

/-- R65: contributions that are written again as they were leave every row. -/
theorem rowWritten_same (l : List (Point × Bool)) (r : ContributionRow) : rowWritten l l r = r := by
  unfold rowWritten
  have keeps : ∀ (m : List (Point × Bool)), (∀ c ∈ m, c ∈ l) →
      m.foldl (fun r c => if l.contains c then r else if r.point = c.1 then { r with terms := c.2 } else r) r = r := by
    intro m
    induction m with
    | nil => exact fun _ => rfl
    | cons c m ih =>
      intro held
      rw [List.foldl_cons, if_pos (List.contains_iff_mem.mpr (held c (List.mem_cons_self ..)))]
      exact ih fun c h => held c (List.mem_cons_of_mem _ h)
  exact keeps l fun _ h => h

/-- R129: an event that changes no gate and no level and counts nothing hands nothing on. -/
theorem eventHanded_same (u : State) {before after : Evaluator} (gates : after.gates = before.gates)
    (levels : after.levels = before.levels) : u.eventHanded before after [] = u := by
  have same : ∀ b, handed b b = none := fun b => if_pos rfl
  have timers : u.timers.timers.mapIdx (fun _ t => t) = u.timers.timers := List.ext_getElem? (by simp)
  have counters : u.timers.counters.mapIdx (fun _ c => c) = u.timers.counters := List.ext_getElem? (by simp)
  have outputs : u.field.outputs.mapIdx (fun _ o => o) = u.field.outputs := List.ext_getElem? (by simp)
  have rows : u.asm.rows.map (rowWritten before.levels.contribs before.levels.contribs) = u.asm.rows := by
    rw [show rowWritten before.levels.contribs before.levels.contribs = id from funext (rowWritten_same _), List.map_id]
  have done : doneChanges u.timers u.timers = [] := by
    rw [doneChanges_eq rfl rfl]
    simp
  simp only [State.eventHanded, gates, levels, same, TimerState.takeInputs, CounterState.takeInputs,
    List.contains_nil, Bool.false_eq_true, if_false, ite_self, timers, counters, outputs, rows]
  simp only [done, List.append_nil]

/-- R116, R133: without a configuration OWN-FAULT is a source that no term reads. -/
theorem takeEvent_ownFault_blank :
    let o := takeEvent ⟨.blank, .configFault, .none⟩ (.source .ownFault true) Evaluator.reset
    o.requests = [] ∧ o.counted = [] ∧ o.eval.gates = Evaluator.reset.gates ∧ o.eval.levels = Evaluator.reset.levels := by
  decide +kernel

/-- R133, R158: OWN-FAULT at a station without a configuration changes the evaluator alone. -/
theorem takeEvalEvent_ownFault_blank {s : State} (config : s.loader.config = none)
    (life : s.lifecycle = .configFault) (standing : s.image.standing = .none) (eval : s.eval = Evaluator.reset) :
    ∃ e, s.takeEvalEvent (.source .ownFault true) = { s with eval := e } := by
  have setup : s.setup = .blank := by rw [State.setup, config]; rfl
  have context : s.evalContext = ⟨.blank, .configFault, .none⟩ := by rw [State.evalContext, setup, life, standing]
  obtain ⟨requests, counted, gates, levels⟩ := takeEvent_ownFault_blank
  rw [← context, ← eval] at requests counted gates levels
  have untriggered : s.setup.capture.trigger = none := by rw [setup]; rfl
  rw [takeEvalEvent_eq, requests, counted, List.foldl_nil, eventHanded_same _ gates levels]
  exact ⟨_, handToCapture_none untriggered⟩

/-! ### The end of a command with one hand-off (R127) -/

theorem runEchoes_none {s : State} (none : s.echoes = []) : ∀ n, runEchoes n s = s
  | 0 => rfl
  | n + 1 => by simp [runEchoes, none]

/-- R127: a command that leaves one hand-off waiting, which nothing answers. -/
theorem finish_oneEcho {s : State} {h : HandOff} (agenda : s.agenda = []) (echoes : s.echoes = [h])
    (unanswered : (State.takeHandOff { s with echoes := [] } h).echoes = []) :
    s.finish = State.takeHandOff { s with echoes := [] } h := by
  have place : s.drawPlace s.echoes = (0, s) := by
    rw [echoes]
    rfl
  have taken : s.takeEcho = State.takeHandOff { s with echoes := [] } h := by
    simp only [State.takeEcho, place]
    rw [echoes]
    rfl
  have tasks : runTasks s.agenda.length s = s := by rw [agenda]; rfl
  show runEchoes (4095 + 1) (runTasks s.agenda.length s) = _
  rw [tasks, runEchoes, if_neg (by simp [echoes]), taken, runEchoes_none unanswered]

/-- R133, R158: OWN-FAULT, where it waits at a station without a configuration. -/
theorem finish_ownFault_blank {s : State} {l : List HandOff} (waits : l = [] ∨ l = [.source .ownFault true])
    (config : s.loader.config = none) (life : s.lifecycle = .configFault) (standing : s.image.standing = .none)
    (eval : s.eval = Evaluator.reset) (quiet : s.Quiet) :
    ∃ e, State.finish { s with echoes := l } = { s with eval := e } := by
  have emptied : { s with echoes := [] } = s := by rw [← quiet.2]
  rcases waits with rfl | rfl
  · rw [emptied, finish_quiet quiet]
    exact ⟨s.eval, rfl⟩
  · obtain ⟨e, taken⟩ := takeEvalEvent_ownFault_blank config life standing eval
    have handed : State.takeHandOff { s with echoes := [] } (.source .ownFault true) = { s with eval := e } := by
      rw [emptied]
      exact taken
    refine ⟨e, (finish_oneEcho (s := { s with echoes := [.source .ownFault true] }) quiet.1 rfl ?_).trans handed⟩
    exact (congrArg State.echoes handed).trans quiet.2

/-! ### The restart (R177, R183) -/

/-- R183: every block at its reset value, but for what a RESTART keeps; the straps are not yet read. -/
def State.cleared (s : State) : State :=
  { s.resetBlocks with
    timeBase := s.timeBase
    fault := s.fault.afterRestart
    capture := s.capture.afterRestart
    asm := { Assembler.reset with faultPart := s.fault.afterRestart.line }
    loader := { Loader.reset with straps := Config.strapLevels s.freeIndex }
    freeIndex := s.freeIndex + 1 }

theorem performRestart_eq (s : State) : s.performRestart = s.cleared.readStraps := rfl

/-- R177: the straps hold a station number. -/
theorem readStraps_number {s : State} (number : isStation s.loader.straps.toNat = true) : s.readStraps =
    { s with loader := { s.loader with number := s.loader.straps.toNat, held := false, phase := .header } } :=
  if_pos number

/-- R177, R181: the straps hold none. -/
theorem readStraps_refused {s : State} (refused : isStation s.loader.straps.toNat = false) : s.readStraps =
    (State.report { s with loader := { s.loader with held := false, phase := .none } }
      .stationStrap none).toConfigFault :=
  if_neg (by simp [refused])

/-- R56, R177: a station that has just started is off the medium. -/
theorem performRestart_outside (s : State) : s.performRestart.lifecycle.participates = false := by
  rw [performRestart_eq]
  cases strapped : isStation s.cleared.loader.straps.toNat
  · rw [readStraps_refused strapped]
    rfl
  · rw [readStraps_number strapped]
    rfl

/-- R157, R158: a report that triggers no capture. -/
theorem takeReport_untriggered {s : State} (untriggered : s.setup.capture.faultTrigger = false) (kind : FaultKind)
    (subject : Option Subject) (life : Lifecycle) :
    s.takeReport kind subject life = showsFault s (s.fault.takeReport kind subject s.timeBase life) := by
  have untriggered' : ∀ f, (State.setup { s with fault := f }).capture.faultTrigger = false := fun _ => untriggered
  simp only [State.takeReport, untriggered', Bool.and_false, Bool.false_eq_true, if_false]
  rfl

/-- R158: a report at a station whose assembler shows the FAULT line. -/
theorem showsFault_on {s : State} {f : FaultUnit} (on : f.line = true) (shown : s.asm.faultPart = s.fault.line) :
    ∃ l, (l = [] ∨ l = [.source .ownFault true]) ∧ showsFault s f =
      { s with fault := f, asm := { s.asm with faultPart := true }, echoes := s.echoes ++ l } := by
  have cases : showsFault s f = if f.line = s.fault.line then { s with fault := f } else
      { s with
        fault := f
        asm := { s.asm with faultPart := f.line }
        echoes := s.echoes ++ [.source .ownFault f.line] } := rfl
  rw [cases, on]
  split
  · rename_i same
    refine ⟨[], .inl rfl, ?_⟩
    rw [same, ← shown, List.append_nil]
  · exact ⟨_, .inr rfl, rfl⟩

/-- R177: a RESTART that finds a station number. -/
theorem performRestart_number {s : State} (number : isStation s.cleared.loader.straps.toNat = true) :
    s.performRestart.finish = { s.cleared with loader := { s.cleared.loader with
      number := s.cleared.loader.straps.toNat, held := false, phase := .header } } := by
  rw [performRestart_eq, readStraps_number number]
  exact finish_quiet ⟨rfl, rfl⟩

/-- R177, R181, R183: the station whose RESTART has found no station number. -/
def State.unnumbered (s : State) : State :=
  { s.cleared with
    lifecycle := .configFault
    loader := { s.cleared.loader with config := none, held := false, phase := .none }
    fault := s.cleared.fault.takeReport .stationStrap none s.timeBase .start
    asm := { Assembler.reset with faultPart := true } }

theorem unnumbered_line (s : State) : s.unnumbered.fault.line = true := by
  cases kept : s.cleared.fault.record <;> simp [State.unnumbered, FaultUnit.line, FaultUnit.takeReport, kept]

/-- R177, R181: a RESTART that finds none reports STATION-STRAP and leads to CONFIG-FAULT. -/
theorem performRestart_refused {s : State} (refused : isStation s.cleared.loader.straps.toNat = false) :
    ∃ e, s.performRestart.finish = { s.unnumbered with eval := e } := by
  set read : State := { s.cleared with loader := { s.cleared.loader with held := false, phase := .none } }
  obtain ⟨l, waits, shows⟩ := showsFault_on (s := read) (unnumbered_line s) rfl
  have reported := (takeReport_untriggered (s := read) rfl .stationStrap none .start).trans shows
  have left : (read.report .stationStrap none).toConfigFault = { s.unnumbered with echoes := l } :=
    congrArg State.toConfigFault reported
  rw [performRestart_eq, readStraps_refused refused, left]
  exact finish_ownFault_blank waits rfl rfl rfl rfl ⟨rfl, rfl⟩

/-- R113, R164, R174, R177, R183: the station that has performed a RESTART. -/
theorem performRestart_restarted {s u : State} (h : Outlasts s u) : Restarted s u.performRestart.finish := by
  have pins : u.cleared.field.inputs = s.field.inputs.map fun i => ⟨i.line, false, none⟩ :=
    congrArg (List.map fun i : FieldInput => FieldInput.resetWith i.line) h.inputs
  have driven : ∀ o ∈ u.cleared.field.outputs, o.driven = false ∧ o.hold = false ∧ o.phase = .off := by
    intro o mem
    obtain ⟨o', -, rfl⟩ := List.mem_map.mp mem
    exact ⟨rfl, rfl, rfl⟩
  have frozen : s.capture.mode = .frozen → u.cleared.capture = s.capture := fun frozen => by
    show u.capture.afterRestart = s.capture
    rw [h.frozen frozen]
    exact if_pos frozen
  cases strapped : isStation u.cleared.loader.straps.toNat
  · obtain ⟨e, done⟩ := performRestart_refused strapped
    rw [done]
    exact
      { started := fun number => absurd (strapped.symm.trans number) (by simp)
        strapped := fun _ => ⟨rfl, rfl, unnumbered_line u⟩
        loader := ⟨rfl, rfl⟩
        link := ⟨rfl, rfl, rfl, rfl, rfl⟩
        asm := congrArg (fun on => { Assembler.reset with faultPart := on }) (unnumbered_line u).symm
        units := ⟨rfl, pins⟩
        outputs := driven
        fault := ⟨rfl, fun r kept => by
          simp [State.unnumbered, State.cleared, FaultUnit.afterRestart, FaultUnit.takeReport, h.record r kept]⟩
        capture := frozen
        rest := ⟨h.pending, h.timeBase⟩ }
  · rw [performRestart_number strapped]
    exact
      { started := fun _ => ⟨rfl, rfl, rfl, rfl⟩
        strapped := fun refused => absurd (strapped.symm.trans refused) (by simp)
        loader := ⟨rfl, rfl⟩
        link := ⟨rfl, rfl, rfl, rfl, rfl⟩
        asm := rfl
        units := ⟨rfl, pins⟩
        outputs := driven
        fault := ⟨rfl, h.record⟩
        capture := frozen
        rest := ⟨h.pending, h.timeBase⟩ }

end Sys2Proof.Machine


/-! SUPPORT. The events at which a RESTART is performed: the commit of its DONE, and the detaches that find it open (R58,
R77, R84, R113, R164, R174, R183). -/

namespace Sys2Proof.Machine

/-! ### The commit of a RESTART's DONE (R174, R183) -/

/-- R183: of the hand-offs that wait, only the reports outlive a RESTART. -/
def State.reportsOnly (s : State) : State :=
  { s with agenda := s.agenda.filter HandOff.outlives, echoes := [] }

theorem reportsOnly_quiet {s : State} (quiet : s.Quiet) : s.reportsOnly = s := by
  have kept : s.agenda.filter HandOff.outlives = s.agenda := by rw [quiet.1, List.filter_nil]
  rw [State.reportsOnly, kept, ← quiet.2]

theorem restartAfter_eq (s : State) : s.restartAfter =
    (runTasks s.someTasks.reportsOnly.agenda.length s.someTasks.reportsOnly).performRestart := rfl

/-- R183: the hand-offs of a command before its restart are taken or discarded. -/
theorem Outlasts.reported {s u : State} (h : Outlasts s u) (n : Nat) :
    Outlasts s (runTasks n u.someTasks.reportsOnly) := by
  obtain ⟨pending, timeBase, inputs, record, frozen⟩ := h.carried fun c => c.someTasks u
  have reports : Outlasts s u.someTasks.reportsOnly := ⟨pending, timeBase, inputs, record, frozen⟩
  exact reports.carried fun c => c.runTasks n _

/-- R183: a command that has handed nothing on. -/
theorem restartAfter_quiet {s : State} (quiet : s.Quiet) : s.restartAfter = s.performRestart := by
  rw [restartAfter_eq, someTasks_quiet quiet, reportsOnly_quiet quiet, quiet.1]
  rfl

section
variable {s : State} {y : Station} {tag : Byte} {withdrawn : Bool}

/-- R54, R77, R174: the path of a RESTART's DONE, withdrawn in flight or not. -/
theorem commitFrame_done (h : OwnFrame s ⟨.svcRsp s.number y tag .done 1 1 [], .sessionPart true, withdrawn⟩)
    (life : s.lifecycle = .active) (own : s.roster.stateOf s.number = .active) :
    s.commitFrame (.svcRsp s.number y tag .done 1 1 []) =
      (s.ownTaken (.svcRsp s.number y tag .done 1 1 [])).someTasks.outcomeTaken.restartAfter := by
  have accepted : accepts s.roster (.svcRsp s.number y tag .done 1 1 []) = true := by
    unfold accepts
    rw [frameSender, own]
  have deliver : s.ownSlotClosed.deliver (.svcRsp s.number y tag .done 1 1 []) true =
      s.ownTaken (.svcRsp s.number y tag .done 1 1 []) := by
    have life' : s.ownSlotClosed.lifecycle = .active := life
    rw [← takeLiveFrame_ownPlain rfl rfl life, ← deliverLive_own accepted rfl]
    simp only [State.deliver, life']
  have path := commitFrame_own h (by simp [life, Lifecycle.onMedium])
  rw [deliver] at path
  have restarts : ∀ (u : State) (wasLost : Bool), u.settleCommitted
      ⟨.svcRsp s.number y tag .done 1 1 [], .sessionPart true, withdrawn⟩ wasLost = u.outcomeTaken.restartAfter :=
    fun u wasLost => by
      unfold State.settleCommitted
      exact if_pos rfl
  rw [restarts] at path
  exact path.trans (checkIsolation_outside _ (performRestart_outside _))

/-- R18 to R20: an own response hands nothing on. -/
theorem ownTaken_svcRsp_quiet (quiet : s.Quiet) {f : Frame} (response : f = .svcRsp s.number y tag .done 1 1 []) :
    (s.ownTaken f).Quiet := by
  subst response
  refine ⟨?_, quiet.2⟩
  have image : s.image.applyLive s.roster (.svcRsp s.number y tag .done 1 1 []) = s.image := rfl
  have records : frameRecords s.image.points (.svcRsp s.number y tag .done 1 1 []) = [] := rfl
  have pulses : pulseHandOffs (.svcRsp s.number y tag .done 1 1 []) = [] := rfl
  have mismatch : s.mismatchReport (.svcRsp s.number y tag .done 1 1 []) = [] := rfl
  simp [State.ownTaken, handedOn, image, records, pulses, mismatch, pointChanges_same, rosterEffect, peerChanges_same,
    quiet.1]

/-- R174, R183: a RESTART's DONE performs the restart. -/
theorem exec_done_restarts (h : OwnFrame s ⟨.svcRsp s.number y tag .done 1 1 [], .sessionPart true, withdrawn⟩)
    (life : s.lifecycle = .active) (own : s.roster.stateOf s.number = .active) :
    ∃ u, Outlasts s u ∧ exec (.svcRsp s.number y tag .done 1 1 []) s = u.performRestart.answer ∧
      (s.Quiet → u.fault = s.fault ∧ u.capture = s.capture) := by
  have effects : Outlasts s (s.ownTaken (.svcRsp s.number y tag .done 1 1 [])) :=
    ⟨rfl, rfl, rfl, fun _ kept => kept, fun _ => rfl⟩
  obtain ⟨pending, timeBase, inputs, record, frozen⟩ := effects.carried fun c => c.someTasks _
  have settled : Outlasts s (s.ownTaken (.svcRsp s.number y tag .done 1 1 [])).someTasks.outcomeTaken :=
    ⟨pending, timeBase, inputs, record, frozen⟩
  refine ⟨_, settled.reported _, by rw [exec_frame rfl, commitFrame_done h life own, restartAfter_eq], fun quiet => ?_⟩
  have calm := ownTaken_svcRsp_quiet (y := y) (tag := tag) quiet rfl
  have calm' : (s.ownTaken (.svcRsp s.number y tag .done 1 1 [])).outcomeTaken.Quiet := calm
  rw [someTasks_quiet calm, someTasks_quiet calm', reportsOnly_quiet calm', calm'.1]
  exact ⟨rfl, rfl⟩

end

/-- R160, R164: the fault record, the counts and capture after a restart that finds a station number. -/
theorem performRestart_records {s : State} (number : isStation s.performRestart.finish.loader.straps.toNat = true) :
    s.performRestart.finish.fault.record = s.fault.record ∧ s.performRestart.finish.fault.counts = s.fault.counts ∧
    s.performRestart.finish.capture = if s.capture.mode = .frozen then s.capture
      else ⟨.off, [], s.capture.nextIndex, s.capture.nextOrdinal, 0, none⟩ := by
  cases strapped : isStation s.cleared.loader.straps.toNat
  · obtain ⟨e, done⟩ := performRestart_refused strapped
    rw [done] at number
    exact absurd (strapped.symm.trans number) (by simp)
  · rw [performRestart_number strapped]
    exact ⟨rfl, rfl, rfl⟩

/-! ### Detaches that find a RESTART open (R58, R84, R113, R174) -/

theorem Outlasts.leaveLink {s u : State} (h : Outlasts s u) (life : Lifecycle) (holdoff : Option Nat) :
    Outlasts s (u.leaveLink life holdoff) := by
  obtain ⟨pending, timeBase, inputs, record, frozen⟩ := h
  exact ⟨pending, timeBase, inputs, record, frozen⟩

theorem keepsRecord_leaveLink (u : State) (life : Lifecycle) (holdoff : Option Nat) :
    KeepsRecord u (u.leaveLink life holdoff) := fun _ h => h

section
variable {s u : State} {c : Instr} {cause : FaultKind}

/-- R113, R174: a detach with a cause that finds a RESTART open. -/
theorem detach_opened (opened : u.service.restartOpen = true) :
    ∃ v, u.detach (some cause) = v.performRestart ∧ (∀ s, Outlasts s u → Outlasts s v) ∧ v.fault.record ≠ none := by
  have service : (u.someTasks.report cause none).service = u.service :=
    (report_untouched u.someTasks cause none).service.trans (someTasks_untouched u).service
  set left := (u.someTasks.report cause none).someTasks.leaveLink .detached none with left_eq
  obtain ⟨r, written⟩ := report_record u.someTasks cause none
  have kept : KeepsRecord (u.someTasks.report cause none) (runTasks left.agenda.length left).someEchoes :=
    keepsRecord_carried.trans (keepsRecord_carried.someTasks _)
      (keepsRecord_carried.trans (keepsRecord_leaveLink _ .detached none)
        (keepsRecord_carried.trans (keepsRecord_carried.runTasks _ _) (keepsRecord_carried.toKept.someEchoes _)))
  refine ⟨(runTasks left.agenda.length left).someEchoes, ?_, fun s h => ?_, by simp [kept r written]⟩
  · simp only [State.detach, service, opened, if_true]
    rfl
  · have reported : Outlasts s (u.someTasks.report cause none).someTasks :=
      h.carried fun c => c.trans (c.someTasks u) (c.trans (c.report _ cause none _) (c.someTasks _))
    have leaves : Outlasts s left := reported.leaveLink .detached none
    exact leaves.carried fun c => c.trans (c.runTasks _ _) (c.someEchoes _)

/-- R113, R157, R174: the command detaches the station, and the restart is performed with its cause on record. -/
theorem restarts_of_detach (exec_eq : exec c s = (u.detach (some cause)).answer) (h : Outlasts s u)
    (opened : u.service.restartOpen = true) :
    ∃ t, exec c s = .next t ∧ Restarted s t ∧ t.fault.record ≠ none := by
  obtain ⟨v, restarts, outlasts, recorded⟩ := detach_opened (cause := cause) opened
  rw [restarts] at exec_eq
  obtain ⟨r, kept⟩ := Option.ne_none_iff_exists'.mp recorded
  have restarted := performRestart_restarted (Outlasts.refl v)
  exact ⟨_, exec_eq, performRestart_restarted (outlasts s h), by simp [restarted.fault.2 r kept]⟩

/-- R112, R174: a station that has restarted in the place of its detach is off the link. -/
theorem checkIsolation_restarted (opened : u.service.restartOpen = true) (before : Roster) :
    (u.detach (some cause)).checkIsolation before = u.detach (some cause) := by
  obtain ⟨v, restarts, -⟩ := detach_opened (cause := cause) opened
  rw [restarts, checkIsolation_outside _ (performRestart_outside v)]

end

/-- Settles O30: the commit of the DONE, and the three detaches. -/
theorem restartIsPerformedAtItsDone : Obligations.RestartIsPerformedAtItsDone := by
  intro s
  refine ⟨fun y tag withdrawn life _ own h => ?_, fun opened => ⟨fun flies eighth => ?_,
    fun cells r m awake part silent fourth taken bad => ?_, fun x live => ?_⟩⟩
  · obtain ⟨u, outlasts, restarts, calm⟩ := exec_done_restarts h life own
    refine ⟨_, restarts, performRestart_restarted outlasts, fun quiet number => ?_⟩
    obtain ⟨fault, capture⟩ := calm quiet
    rw [← fault, ← capture]
    exact performRestart_records number
  · have spent : ¬ s.settleFailed.commit.failures < 7 := by simp [State.settleFailed, eighth]
    refine restarts_of_detach (u := s.settleFailed) (cause := .sendRetries) ?_
      ⟨rfl, rfl, rfl, fun _ kept => kept, fun _ => rfl⟩ opened
    rw [exec_abort flies, State.abortFlight, State.countFailure, if_neg spent]
  · have spent : ¬ s.slotSpoiled.commit.vetoes < 3 := by simp [State.slotSpoiled, CommitUnit.listened, fourth]
    refine restarts_of_detach (u := s.slotSpoiled) (cause := .vetoBudget) ?_
      ⟨rfl, rfl, rfl, fun _ kept => kept, fun _ => rfl⟩ opened
    rw [exec_veto_receiver awake part silent, taken, Option.map_some, bad, State.slotJudged, State.ownVeto,
      if_neg spent]
  · have names : namesLost s.slotClosed.number (.loss x s.number) = true := decide_eq_true rfl
    refine restarts_of_detach (u := s.slotClosed) (cause := .namedLost) ?_
      ⟨rfl, rfl, rfl, fun _ kept => kept, fun _ => rfl⟩ opened
    rw [exec_frame rfl, commitFrame_live live]
    change (State.checkIsolation (s.slotClosed.deliverLive _ false) s.roster).answer = _
    rw [State.deliverLive, if_neg (by simp [State.slotClosed, live.accepted]), if_pos names,
      checkIsolation_restarted (u := s.slotClosed) opened]

end Sys2Proof.Machine

/-! SUPPORT. One pass of the evaluator, part by part: the terms it touches, their results, what they remember, the
requests they fire and the level targets that follow them (R117, R119, R120, R123 to R125, R128, R130). -/

namespace Sys2Proof.Machine

/-! ### Places in a list -/

/-- The places of a list whose entry and number meet a condition, in ascending order. -/
def placesWhere {α : Type} (l : List α) (c : α × Nat → Bool) : List Nat := (l.zipIdx.filter c).map Prod.snd

theorem placesWhere_ascending {α : Type} (l : List α) (c : α × Nat → Bool) : (placesWhere l c).Pairwise (· < ·) := by
  refine List.Pairwise.sublist (List.filter_sublist.map Prod.snd) ?_
  rw [List.zipIdx_map_snd]
  exact List.pairwise_lt_range'

theorem mem_placesWhere {α : Type} {l : List α} {c : α × Nat → Bool} {i : Nat} :
    i ∈ placesWhere l c ↔ ∃ a, l[i]? = some a ∧ c (a, i) = true := by
  simp only [placesWhere, List.mem_map, List.mem_filter, Prod.exists, exists_eq_right, List.mem_zipIdx_iff_getElem?]

theorem mem_placesWhere_at {α : Type} {l : List α} {c : α × Nat → Bool} {i : Nat} {a : α} (at_i : l[i]? = some a) :
    i ∈ placesWhere l c ↔ c (a, i) = true := by
  simp [mem_placesWhere, at_i]

/-- What is listed of the entries that meet a condition, read by their places. -/
theorem filterMap_placesWhere {α β : Type} (l : List α) (c : α × Nat → Bool) (f : α → Option β) :
    l.zipIdx.filterMap (fun x => if c x = true then f x.1 else none) =
      (placesWhere l c).filterMap fun i => l[i]?.bind f := by
  rw [placesWhere, List.filterMap_map, List.filterMap_filter]
  refine List.filterMap_congr fun x mem => ?_
  split
  · simp [List.mem_zipIdx_iff_getElem?.mp mem]
  · rfl

/-- A list that takes new values place by place. -/
theorem getD_zipIdx_map (l : List Bool) (f : Bool → Nat → Bool) {n : Nat} (low : n < l.length) :
    (l.zipIdx.map fun (v, n) => f v n).getD n false = f (l.getD n false) n := by
  refine (getD_map_zipIdx (List.getElem?_eq_getElem low) _ _).trans ?_
  simp [low]

/-! ### The terms of a pass (R117, R120, R125, R128) -/

section
variable {ctx : EvalContext} {changed : List Source} {p : PassState}

/-- R117: a pass touches a term. -/
def PassTouches (ctx : EvalContext) (changed : List Source) (p : PassState) (t : Term) : Prop :=
  Touched t changed p.eval.gates (evalPass ctx changed p).eval.gates

/-- The state of a gate in a pass. -/
def passGate (ctx : EvalContext) (changed : List Source) (p : PassState) (g : Nat) : GateState :=
  (evalPass ctx changed p).eval.gates.getD g .closed

/-- The result of a term in a pass, by the term's place. -/
def passResult (ctx : EvalContext) (changed : List Source) (p : PassState) (i : Nat) : Bool :=
  (evalPass ctx changed p).eval.results.getD i false

/-- The places of the terms that a pass touches. -/
def touchedPlaces (ctx : EvalContext) (changed : List Source) (p : PassState) : List Nat :=
  placesWhere ctx.setup.terms fun x => x.1.literals.any (fun l => changed.contains l.source) ||
    decide (passGate ctx changed p x.1.gate ≠ p.eval.gates.getD x.1.gate .closed)

/-- R117: the terms touched are those that a changed source or a moved gate touches. -/
theorem mem_touchedPlaces {i : Nat} {t : Term} (at_i : ctx.setup.terms[i]? = some t) :
    i ∈ touchedPlaces ctx changed p ↔ PassTouches ctx changed p t := by
  simp [touchedPlaces, mem_placesWhere_at at_i, PassTouches, Touched, passGate]

theorem contains_touchedPlaces {i : Nat} {t : Term} (at_i : ctx.setup.terms[i]? = some t) :
    (touchedPlaces ctx changed p).contains i = true ↔ PassTouches ctx changed p t :=
  List.contains_iff_mem.trans (mem_touchedPlaces at_i)

theorem evalPass_touched (ctx : EvalContext) (changed : List Source) (p : PassState) :
    (evalPass ctx changed p).touched = p.touched ++ touchedPlaces ctx changed p := rfl

/-- R117: the result of one term after a pass. -/
theorem evalPass_result {i : Nat} {t : Term} (at_i : ctx.setup.terms[i]? = some t) :
    (PassTouches ctx changed p t → passResult ctx changed p i = t.result p.eval.src) ∧
    (¬ PassTouches ctx changed p t → passResult ctx changed p i = p.eval.results.getD i false) := by
  have result : passResult ctx changed p i =
      if (touchedPlaces ctx changed p).contains i then t.result p.eval.src else p.eval.results.getD i false :=
    getD_map_zipIdx at_i _ _
  have hit := contains_touchedPlaces (changed := changed) (p := p) at_i
  exact ⟨fun h => result.trans (if_pos (hit.mpr h)), fun h => result.trans (if_neg (h ∘ hit.mp))⟩

/-- R125: what term `i` remembers once the gates that open in a pass have set it. -/
def rememberedAnew (ctx : EvalContext) (changed : List Source) (p : PassState) (i : Nat) (t : Term) : Bool :=
  reopenRemembered (gatesOpened ctx p) t (passResult ctx changed p i) (p.eval.remembered.getD i false)

/-- R120: what one term remembers after a pass. -/
theorem evalPass_remembered {i : Nat} {t : Term} (at_i : ctx.setup.terms[i]? = some t)
    (request : t.target.isRequest = true) :
    (PassTouches ctx changed p t → passGate ctx changed p t.gate = .opened →
        (evalPass ctx changed p).eval.remembered.getD i false = passResult ctx changed p i) ∧
    (¬ (PassTouches ctx changed p t ∧ passGate ctx changed p t.gate = .opened) →
      (evalPass ctx changed p).eval.remembered.getD i false = rememberedAnew ctx changed p i t) := by
  have anew : (ctx.setup.terms.zipIdx.map fun (t, i) => rememberedAnew ctx changed p i t).getD i false =
      rememberedAnew ctx changed p i t := getD_map_zipIdx at_i _ _
  have remembered : (evalPass ctx changed p).eval.remembered.getD i false =
      if (touchedPlaces ctx changed p).contains i && t.target.isRequest && passGate ctx changed p t.gate = .opened
      then passResult ctx changed p i
      else (ctx.setup.terms.zipIdx.map fun (t, i) => rememberedAnew ctx changed p i t).getD i false :=
    getD_map_zipIdx at_i _ _
  have acts : ((touchedPlaces ctx changed p).contains i && t.target.isRequest &&
      passGate ctx changed p t.gate = .opened) = true ↔
        PassTouches ctx changed p t ∧ passGate ctx changed p t.gate = .opened := by
    rw [Bool.and_eq_true, Bool.and_eq_true, contains_touchedPlaces at_i, decide_eq_true_eq, request,
      and_iff_left rfl]
  exact ⟨fun h opened => remembered.trans (if_pos (acts.mpr ⟨h, opened⟩)),
    fun h => (remembered.trans (if_neg (h ∘ acts.mp))).trans anew⟩

/-- R125: the gates that open in a pass are those that are OPEN now and were not. -/
theorem mem_gatesOpening_iff {g : Nat} : g ∈ gatesOpening ctx p ↔
    (evalPass ctx changed p).eval.gates.getD g .closed = .opened ∧ p.eval.gates.getD g .closed ≠ .opened := by
  refine ⟨fun mem => ?_, fun ⟨opened, shut⟩ => mem_gatesOpening opened shut⟩
  obtain ⟨moved, opened⟩ := List.mem_filter.mp mem
  have moved := of_decide_eq_true (List.mem_filter.mp moved).2
  rw [of_decide_eq_true opened] at moved
  exact ⟨of_decide_eq_true opened, moved.symm⟩

/-- R125: gate `g` reopens QUIET in a pass: G0 opens or has opened in the event, or the gate's mode says so. -/
def ReopensQuiet (ctx : EvalContext) (p : PassState) (g : Nat) : Prop :=
  0 ∈ gatesOpening ctx p ∨ (∃ b, (0, b) ∈ p.opened) ∨ g = 0 ∨ (ctx.setup.gate g).mode = .quiet

theorem mem_gatesOpened {g : Nat} {b : Bool} : (g, b) ∈ gatesOpened ctx p ↔
    g ∈ gatesOpening ctx p ∧ (b = true ↔ ReopensQuiet ctx p g) := by
  have quiet : ((gatesOpening ctx p).contains 0 || p.opened.any (fun g => g.1 = 0) || g = 0 ||
      (ctx.setup.gate g).mode = .quiet) = true ↔ ReopensQuiet ctx p g := by
    simp [ReopensQuiet, or_assoc]
  simp only [gatesOpened, List.mem_map, Prod.mk.injEq]
  constructor
  · rintro ⟨_, mem, rfl, rfl⟩
    exact ⟨mem, quiet⟩
  · rintro ⟨mem, same⟩
    exact ⟨g, mem, rfl, Bool.eq_iff_iff.mpr (quiet.trans same.symm)⟩

/-- R125: the entry of a gate among those that open in a pass. -/
theorem find_gatesOpened (g : Nat) :
    (g ∈ gatesOpening ctx p → ∃ b, (gatesOpened ctx p).find? (fun o => o.1 = g) = some (g, b) ∧
      (b = true ↔ ReopensQuiet ctx p g)) ∧
    (g ∉ gatesOpening ctx p → (gatesOpened ctx p).find? (fun o => o.1 = g) = none) := by
  cases found : (gatesOpened ctx p).find? (fun o => o.1 = g) with
  | none =>
    refine ⟨fun mem => ?_, fun _ => rfl⟩
    refine absurd (List.find?_eq_none.mp found (g, _) (List.mem_map_of_mem mem)) ?_
    simp
  | some o =>
    obtain ⟨n, b⟩ := o
    obtain rfl : n = g := by simpa using List.find?_some found
    obtain ⟨mem, quiet⟩ := mem_gatesOpened.mp (List.mem_of_find?_eq_some found)
    exact ⟨fun _ => ⟨b, rfl, quiet⟩, fun notMem => absurd mem notMem⟩

/-- R125, step 3 of R128: the remembered result before the terms fire. -/
theorem rememberedAnew_iff {i : Nat} {t : Term} (request : t.target.isRequest = true) :
    rememberedAnew ctx changed p i t = true ↔
      (t.gate ∈ gatesOpening ctx p ∧ ReopensQuiet ctx p t.gate ∧ passResult ctx changed p i = true) ∨
      (t.gate ∉ gatesOpening ctx p ∧ p.eval.remembered.getD i false = true) := by
  obtain ⟨opening, staying⟩ := find_gatesOpened (ctx := ctx) (p := p) t.gate
  unfold rememberedAnew reopenRemembered
  rw [if_pos request]
  by_cases opens : t.gate ∈ gatesOpening ctx p
  · obtain ⟨b, found, quiet⟩ := opening opens
    rw [found]
    cases b <;> simp [opens, ← quiet]
  · rw [staying opens]
    simp [opens]

/-- The places of the terms that fire in a pass. -/
def firedPlaces (ctx : EvalContext) (changed : List Source) (p : PassState) : List Nat :=
  placesWhere ctx.setup.terms fun x =>
    (touchedPlaces ctx changed p).contains x.2 &&
      fires x.1 (passGate ctx changed p x.1.gate) (passResult ctx changed p x.2)
        ((ctx.setup.terms.zipIdx.map fun (t, i) => rememberedAnew ctx changed p i t).getD x.2 false)

/-- R128: the requests of a pass are those of the terms that fire, in ascending term number. -/
theorem evalPass_requests (ctx : EvalContext) (changed : List Source) (p : PassState) :
    (evalPass ctx changed p).requests =
      p.requests ++ (firedPlaces ctx changed p).filterMap fun i => ctx.setup.terms[i]?.bind Term.request? := by
  rw [firedPlaces, ← filterMap_placesWhere]
  rfl

/-- R120, step 4 of R128: which terms fire in a pass. -/
theorem mem_firedPlaces {i : Nat} {t : Term} (at_i : ctx.setup.terms[i]? = some t) :
    i ∈ firedPlaces ctx changed p ↔
      t.target.isRequest = true ∧ PassTouches ctx changed p t ∧ passGate ctx changed p t.gate = .opened ∧
        passResult ctx changed p i = true ∧ ¬ rememberedAnew ctx changed p i t = true := by
  rw [firedPlaces, mem_placesWhere_at at_i, getD_map_zipIdx at_i]
  simp only [fires, Bool.and_eq_true, contains_touchedPlaces at_i, decide_eq_true_eq, Bool.not_eq_true',
    Bool.not_eq_true]
  tauto

end

/-! ### Level targets (R119, R124) -/

/-- R124: what a term counts for by the state of its gate. -/
theorem gatedResult_iff (target : Target) (gate : GateState) (result : Bool) :
    gatedResult target gate result = true ↔ result = true ∧
      (gate = .opened ∨ gate = .preview ∧ ((∃ n, target = .marker n) ∨ ∃ p, target = .contribute p)) := by
  cases gate <;> cases target <;> simp [gatedResult]

/-- R119: the OR over the terms of a level target. -/
theorem targetValue_iff (terms : List Term) (target : Target) (results : List Bool) (gates : List GateState) :
    targetValue terms target results gates = true ↔
      ∃ i t, terms[i]? = some t ∧ t.target = target ∧ results.getD i false = true ∧
        (gates.getD t.gate .closed = .opened ∨ gates.getD t.gate .closed = .preview ∧
          ((∃ n, target = .marker n) ∨ ∃ p, target = .contribute p)) := by
  simp only [targetValue, List.any_eq_true, Prod.exists, List.mem_zipIdx_iff_getElem?, Bool.and_eq_true,
    decide_eq_true_eq, gatedResult_iff]
  exact exists_comm

/-- Step 5 of R128: a level target that is settled follows its terms. -/
theorem settleTarget_follows {terms : List Term} {places : List Nat} {touched : Term → Prop}
    (places_iff : ∀ i t, terms[i]? = some t → (i ∈ places ↔ touched t)) (results : List Bool) (gates : List GateState)
    (target : Target) (old : Bool) : FollowsItsTerms terms touched results gates target old
      (settleTarget terms places results gates target old) := by
  have named : (terms.zipIdx.any fun (t, i) => t.target = target && places.contains i) = true ↔
      ∃ t ∈ terms, t.target = target ∧ touched t := by
    simp only [List.any_eq_true, Prod.exists, List.mem_zipIdx_iff_getElem?, Bool.and_eq_true, decide_eq_true_eq,
      List.contains_iff_mem]
    constructor
    · rintro ⟨t, i, at_i, same, mem⟩
      exact ⟨t, List.mem_of_getElem? at_i, same, (places_iff i t at_i).mp mem⟩
    · rintro ⟨t, mem, same, h⟩
      obtain ⟨i, at_i⟩ := List.mem_iff_getElem?.mp mem
      exact ⟨t, i, at_i, same, (places_iff i t at_i).mpr h⟩
  refine ⟨fun some => ?_, fun none => if_neg fun any => ?_⟩
  · rw [settleTarget, if_pos (named.mpr some), targetValue_iff]
  · obtain ⟨t, mem, same, h⟩ := named.mp any
    exact none t mem same h

section
variable (ctx : EvalContext) (changed : List Source) (p : PassState)

/-- R119: a target follows its terms through a pass. -/
def PassFollows (target : Target) (old new : Bool) : Prop :=
  FollowsItsTerms ctx.setup.terms (PassTouches ctx changed p)
    (evalPass ctx changed p).eval.results (evalPass ctx changed p).eval.gates target old new

/-- The value of a level target after a pass. -/
def passLevel (target : Target) (old : Bool) : Bool :=
  settleTarget ctx.setup.terms (touchedPlaces ctx changed p) (evalPass ctx changed p).eval.results
    (evalPass ctx changed p).eval.gates target old

theorem passLevel_follows (target : Target) (old : Bool) :
    PassFollows ctx changed p target old (passLevel ctx changed p target old) :=
  settleTarget_follows (fun _ _ at_i => mem_touchedPlaces at_i) _ _ _ _

/-- A row of level targets of one kind through a pass. -/
theorem row_follows (target : Nat → Target) (old : List Bool) :
    (old.zipIdx.map fun (v, n) => passLevel ctx changed p (target n) v).length = old.length ∧
    ∀ n, n < old.length → PassFollows ctx changed p (target n) (old.getD n false)
      ((old.zipIdx.map fun (v, n) => passLevel ctx changed p (target n) v).getD n false) := by
  refine ⟨by simp, fun n low => ?_⟩
  rw [getD_zipIdx_map old (fun v n => passLevel ctx changed p (target n) v) low]
  exact passLevel_follows ctx changed p _ _

theorem evalPass_contribs : (evalPass ctx changed p).eval.levels.contribs =
    p.eval.levels.contribs.map fun (q, v) => (q, passLevel ctx changed p (.contribute q) v) := rfl

theorem evalPass_markers_length : (evalPass ctx changed p).eval.src.markers.length = p.eval.src.markers.length :=
  (row_follows ctx changed p .marker p.eval.src.markers).1

/-! ### The lists of an event (R121, R125, R130) -/

/-- R130: the markers that join the cascade list in a pass, in ascending order. -/
def joinedMarkers : List Nat :=
  ((List.range (evalPass ctx changed p).eval.src.markers.length).filter fun n =>
    (evalPass ctx changed p).eval.src.markers.getD n false ≠ p.eval.src.markers.getD n false).filter
      fun n => !p.cascade.contains n

theorem evalPass_joined : (evalPass ctx changed p).cascade = p.cascade ++ joinedMarkers ctx changed p := rfl

theorem joinedMarkers_ascending : (joinedMarkers ctx changed p).Pairwise (· < ·) :=
  (List.pairwise_lt_range.filter _).filter _

variable {ctx changed p}

/-- R130: the markers that join are those that changed, but for those on the list already. -/
theorem mem_joinedMarkers {n : Nat} : n ∈ joinedMarkers ctx changed p ↔
    (evalPass ctx changed p).eval.src.markers.getD n false ≠ p.eval.src.markers.getD n false ∧ n ∉ p.cascade := by
  have same := evalPass_markers_length ctx changed p
  simp only [joinedMarkers, List.mem_filter, List.mem_range, decide_eq_true_eq, Bool.not_eq_true',
    List.contains_eq_mem, decide_eq_false_iff_not, and_congr_left_iff, and_iff_right_iff_imp]
  intro _ differ
  by_contra high
  refine differ ?_
  rw [List.getD_eq_default _ _ (by omega), List.getD_eq_default _ _ (by omega)]

/-- R121: the gates that change state in a pass. -/
theorem mem_movedGates {g : Nat} :
    g ∈ ((List.range 9).filter fun g => (evalPass ctx changed p).eval.gates.getD g .closed ≠
        p.eval.gates.getD g .closed) ↔
      g < 9 ∧ (evalPass ctx changed p).eval.gates.getD g .closed ≠ p.eval.gates.getD g .closed := by
  simp

end

/-- Settles O52: a pass part by part; of the gates that open, whether they are QUIET; of the terms, which fire. -/
theorem evaluatorFollowsItsTerms : Obligations.EvaluatorFollowsItsTerms := by
  intro ctx changed p terms q e f was is touched result opens quiet held fires follows row differs
  have opens_iff : ∀ g, g ∈ gatesOpening ctx p ↔ opens g := fun g => mem_gatesOpening_iff
  have quiet_iff : ∀ g, ReopensQuiet ctx p g ↔ quiet g := fun g => or_congr_left (opens_iff 0)
  have held_iff : ∀ i t, t.target.isRequest = true → (rememberedAnew ctx changed p i t = true ↔ held i t) :=
    fun i t request => (rememberedAnew_iff request).trans (or_congr
      (and_congr (opens_iff t.gate) (and_congr_left' (quiet_iff t.gate)))
      (and_congr_left' (not_congr (opens_iff t.gate))))
  refine ⟨rfl, rfl, rfl, rfl, by simp [f, q, evalPass, terms], by simp [f, q, evalPass, terms],
    fun i t at_i => ⟨(evalPass_result at_i).1, (evalPass_result at_i).2, fun request => ?_⟩,
    ⟨firedPlaces ctx changed p, placesWhere_ascending _ _, fun i => ?_, evalPass_requests ctx changed p⟩,
    row_follows ctx changed p .marker _, row_follows ctx changed p .output _, row_follows ctx changed p .timerCoil _,
    row_follows ctx changed p .timerReset _, row_follows ctx changed p .countReset _, ?_,
    fun i point old new before after => ?_,
    ⟨_, placesWhere_ascending _ _, fun i => ?_, evalPass_touched ctx changed p⟩,
    ⟨_, List.pairwise_lt_range.filter _, fun g => mem_movedGates, rfl⟩,
    ⟨_, fun g b => ?_, evalPass_opened ctx changed p⟩,
    _, joinedMarkers_ascending ctx changed p, fun n => mem_joinedMarkers, evalPass_joined ctx changed p⟩
  · obtain ⟨takes, keeps⟩ := evalPass_remembered (changed := changed) (p := p) at_i request
    refine ⟨takes, fun h => ?_⟩
    rw [← held_iff i t request]
    exact Bool.eq_iff_iff.mp (keeps h)
  · constructor
    · intro mem
      obtain ⟨t, at_i, -⟩ := mem_placesWhere.mp mem
      obtain ⟨request, h, opened, on, off⟩ := (mem_firedPlaces at_i).mp mem
      exact ⟨t, at_i, request, h, opened, on, fun h => off ((held_iff i t request).mpr h)⟩
    · rintro ⟨t, at_i, request, h, opened, on, off⟩
      exact (mem_firedPlaces at_i).mpr ⟨request, h, opened, on, fun h => off ((held_iff i t request).mp h)⟩
  · rw [show f.levels.contribs = _ from evalPass_contribs ctx changed p, List.map_map]
    rfl
  · rw [show f.levels.contribs = _ from evalPass_contribs ctx changed p, List.getElem?_map,
      show e.levels.contribs[i]? = _ from before] at after
    obtain rfl : passLevel ctx changed p (.contribute point) old = new := by simpa using after
    exact passLevel_follows ctx changed p _ _
  · constructor
    · intro mem
      obtain ⟨t, at_i, -⟩ := mem_placesWhere.mp mem
      exact ⟨t, at_i, (mem_touchedPlaces at_i).mp mem⟩
    · rintro ⟨t, at_i, h⟩
      exact (mem_touchedPlaces at_i).mpr h
  · rw [mem_gatesOpened, opens_iff, quiet_iff]

end Sys2Proof.Machine

/-! SUPPORT. An event taken whole: what a term reads of the sources, the results that agree with the values held, the end
of the marker cascade, and the counters (R116, R117, R121 to R123, R125, R128, R130). -/

namespace Sys2Proof.Machine

/-! ### What a term reads (R116, R117) -/

theorem getD_set_other (l : List Bool) {n m : Nat} (other : m ≠ n) (v : Bool) :
    (l.set n v).getD m false = l.getD m false := by
  rw [List.getD_eq_getElem?_getD, List.getD_eq_getElem?_getD, List.getElem?_set_ne other.symm]

/-- R116: a source that takes its new value leaves the others as they are. -/
theorem Sources.value_put {src : Sources} {x y : Source} (other : y ≠ x) (v : Bool) :
    (src.put x v).value y = src.value y := by
  cases x
  case peer s =>
    by_cases unnamed : s = 0
    · rw [Sources.put, if_pos unnamed]
    · rw [Sources.put, if_neg unnamed]
      cases y
      case peer z =>
        by_cases none : z = 0
        · simp only [Sources.value, if_pos none]
        · have places : z - 1 ≠ s - 1 := fun same =>
            other (congrArg Source.peer (Nat.sub_one_cancel (Nat.pos_of_ne_zero none) (Nat.pos_of_ne_zero unnamed) same))
          simp only [Sources.value, if_neg none, getD_set_other _ places]
      all_goals rfl
  all_goals cases y <;> simp_all [Sources.put, Sources.value, getD_set_other, -List.getD_eq_getElem?_getD]

/-- R18: the points that take their values together leave the other sources as they are. -/
theorem Sources.value_putPoints {y : Source} {changes : List (Point × Bool)} (other : ∀ c ∈ changes, y ≠ .point c.1)
    (src : Sources) : (src.putPoints changes).value y = src.value y := by
  induction changes generalizing src with
  | nil => rfl
  | cons c changes ih =>
    have rest := ih (fun c mem => other c (List.mem_cons_of_mem _ mem)) (src.put (.point c.1) c.2)
    exact rest.trans (Sources.value_put (other c List.mem_cons_self) c.2)

/-- R117: a literal is that of the source it names. -/
theorem Literal.on_congr {l : Literal} {src src' : Sources} (same : src.value l.source = src'.value l.source) :
    l.on src = l.on src' := by
  rw [Literal.on, Literal.on, same]

/-- R117: a term's result is that of the sources it names. -/
theorem Term.result_congr {t : Term} {src src' : Sources}
    (same : ∀ l ∈ t.literals, src.value l.source = src'.value l.source) : t.result src = t.result src' := by
  rw [Bool.eq_iff_iff, Term.result, Term.result, List.all_eq_true, List.all_eq_true]
  exact forall₂_congr fun l mem => by rw [Literal.on_congr (same l mem)]

section
variable {ctx : EvalContext} {changed : List Source} {p : PassState}

/-- R130: a marker that changes in a pass stands on the cascade list after it. -/
theorem changed_mem_cascade {n : Nat}
    (differs : (evalPass ctx changed p).eval.src.markers.getD n false ≠ p.eval.src.markers.getD n false) :
    n ∈ (evalPass ctx changed p).cascade := by
  rw [evalPass_joined, List.mem_append]
  by_cases listed : n ∈ p.cascade
  · exact .inl listed
  · exact .inr (mem_joinedMarkers.mpr ⟨differs, listed⟩)

/-- R119: a source that changes in a pass is a marker, and stands on the cascade list after it. -/
theorem evalPass_value {x : Source} (waits : ∀ n ∈ (evalPass ctx changed p).cascade, x ≠ .marker n) :
    (evalPass ctx changed p).eval.src.value x = p.eval.src.value x := by
  cases x
  case marker n =>
    by_contra differs
    exact waits n (changed_mem_cascade differs) rfl
  all_goals rfl

/-! ### Results that agree with the values held (R116, R117) -/

/-- R117, R119, R130: the results agree after a pass, but for the terms of the markers on the cascade list. -/
theorem resultsAgree_pass {waiting : List Source}
    (agree : ResultsAgree ctx.setup p.eval (changed ++ waiting) p.cascade) :
    ResultsAgree ctx.setup (evalPass ctx changed p).eval waiting (evalPass ctx changed p).cascade := by
  intro i t at_i free
  have held : t.result (evalPass ctx changed p).eval.src = t.result p.eval.src :=
    Term.result_congr fun l mem => evalPass_value (free l mem).2
  obtain ⟨takes, keeps⟩ := evalPass_result (changed := changed) (p := p) at_i
  rw [held]
  by_cases touched : PassTouches ctx changed p t
  · exact takes touched
  · refine (keeps touched).trans (agree i t at_i fun l mem => ⟨?_, fun n listed => ?_⟩)
    · rw [List.mem_append, not_or]
      exact ⟨fun change => touched (.inl ⟨l, mem, change⟩), (free l mem).1⟩
    · exact (free l mem).2 n (List.mem_append_left _ listed)

/-- R130: the results agree after the cascade, but for the terms of the markers that are left on its list. -/
theorem resultsAgree_cascade {waiting : List Source} (fuel : Nat) {p : PassState}
    (agree : ResultsAgree ctx.setup p.eval waiting p.cascade) :
    ResultsAgree ctx.setup (evalCascade ctx fuel p).eval waiting (evalCascade ctx fuel p).cascade := by
  induction fuel generalizing p with
  | zero => exact agree
  | succ fuel ih =>
    unfold evalCascade
    split
    · exact agree
    next m rest list =>
      refine ih (resultsAgree_pass fun i t at_i free => agree i t at_i fun l mem => ?_)
      obtain ⟨unchanged, later⟩ := free l mem
      rw [List.singleton_append, List.mem_cons, not_or] at unchanged
      rw [list]
      exact ⟨unchanged.2, List.forall_mem_cons.mpr ⟨unchanged.1, later⟩⟩

/-- R116, R117: results that agree with the values held agree with those of other sources that differ only where changes
wait to be taken. -/
theorem resultsAgree_sources {setup : StationSetup} {e e' : Evaluator} {waiting waiting' : List Source}
    {cascade : List Nat} (agree : ResultsAgree setup e waiting cascade) (results : e'.results = e.results)
    (more : ∀ x ∈ waiting, x ∈ waiting') (held : ∀ x, x ∉ waiting' → e'.src.value x = e.src.value x) :
    ResultsAgree setup e' waiting' cascade := by
  intro i t at_i free
  rw [results, Term.result_congr fun l mem => held l.source (free l mem).1]
  exact agree i t at_i fun l mem => ⟨fun waits => (free l mem).1 (more _ waits), (free l mem).2⟩

end

/-! ### The end of the cascade (R122, R123, R130) -/

/-- R122, R123: a gate has the same state where every enable literal of its chain has the same value. -/
theorem gateState_congr {setup : StationSetup} {src src' : Sources} (g0 : GateState) {g : Nat} (fuel : Nat)
    (same : ∀ x, chainReads setup g x → src.value x = src'.value x) :
    gateState setup src g0 fuel g = gateState setup src' g0 fuel g := by
  induction fuel generalizing g with
  | zero => rfl
  | succ fuel ih =>
    by_cases isG0 : g = 0
    · subst isG0
      rfl
    · have parent := ih (g := (setup.gate g).parent) fun x ⟨k, l, alive, enable, reads⟩ =>
        have step : (parentOf setup)^[k + 1] g = (parentOf setup)^[k] (setup.gate g).parent := by
          rw [Function.iterate_succ_apply, parentOf, if_neg isG0]
        same x ⟨k + 1, l, step ▸ alive, step ▸ enable, reads⟩
      rw [gateState_succ isG0, gateState_succ isG0, parent]
      cases enable : (setup.gate g).enable with
      | none => rfl
      | some l =>
        dsimp only
        rw [Literal.on_congr (same l.source ⟨0, l, isG0, enable, rfl⟩)]

/-- R123: a gate that differs has a source in its chain that differs. -/
theorem gateStates_differ {setup : StationSetup} {src src' : Sources} {life : Lifecycle} {standing : Standing} {g : Nat}
    (differ : (gateStates setup src life standing).getD g .closed ≠
      (gateStates setup src' life standing).getD g .closed) :
    ∃ x, chainReads setup g x ∧ src.value x ≠ src'.value x := by
  by_contra none
  push Not at none
  refine differ ?_
  by_cases low : g ≤ 8
  · rw [gateStates_getD low, gateStates_getD low, gateState_congr _ _ none]
  · rw [List.getD_eq_default _ _ (by simp [gateStates]; omega), List.getD_eq_default _ _ (by simp [gateStates]; omega)]

/-- R122: how many markers a marker depends on, directly or not. -/
noncomputable def markersBelow (setup : StationSetup) (m : Nat) : Nat :=
  {b | b < 32 ∧ Relation.TransGen (dependsOn setup) m b}.ncard

section
variable {setup : StationSetup} (acyclic : ∀ m, ¬ Relation.TransGen (dependsOn setup) m m)
include acyclic

/-- A marker depends on more markers than one that it depends on. -/
theorem markersBelow_lt {a b : Nat} (depends : dependsOn setup a b) (low : b < 32) :
    markersBelow setup b < markersBelow setup a := by
  refine Set.ncard_lt_ncard ⟨fun c ⟨lt, path⟩ => ⟨lt, .head depends path⟩, fun all => ?_⟩
    ((Set.finite_lt_nat 32).subset fun c h => h.1)
  exact acyclic b (all ⟨low, .single depends⟩).2

theorem markersBelow_lt_32 {a : Nat} (low : a < 32) : markersBelow setup a < 32 := by
  have fewer : markersBelow setup a < (Set.Iio 32).ncard := by
    refine Set.ncard_lt_ncard ⟨fun c h => h.1, fun all => ?_⟩ (Set.finite_Iio 32)
    exact acyclic a (all low).2
  simpa [Set.ncard_eq_toFinset_card'] using fewer

end

/-- R130: the cascade list in its round `r`: `front` is left of the markers that joined in the round before, `back` has
joined in this one. A marker that joins in a round depends on at least as many markers as rounds have passed. The gates
are those of sources that differ from the ones now held in such markers only. -/
structure InRound (ctx : EvalContext) (r : Nat) (front back : List Nat) (p : PassState) : Prop where
  list   : p.cascade = front ++ back
  length : p.eval.src.markers.length = 32
  once   : p.cascade.Nodup
  low    : ∀ m ∈ p.cascade, m < 32
  before : ∀ m ∈ front, r ≤ markersBelow ctx.setup m
  now    : ∀ m ∈ back, r < markersBelow ctx.setup m
  lag    : ∃ src, p.eval.gates = gateStates ctx.setup src ctx.life ctx.standing ∧
    ∀ x, p.eval.src.value x ≠ src.value x → ∃ b, x = .marker b ∧ b < 32 ∧ r ≤ markersBelow ctx.setup b

section
variable {ctx : EvalContext} {changed : List Source} {p : PassState}

/-- R119: a marker changes in a pass only by a touched term that names it. -/
theorem changed_named {a : Nat}
    (differs : (evalPass ctx changed p).eval.src.markers.getD a false ≠ p.eval.src.markers.getD a false) :
    a < p.eval.src.markers.length ∧ ∃ t ∈ ctx.setup.terms, t.target = .marker a ∧ PassTouches ctx changed p t := by
  have low : a < p.eval.src.markers.length := by
    by_contra high
    refine differs ?_
    rw [List.getD_eq_default _ _ (by rw [evalPass_markers_length]; omega), List.getD_eq_default _ _ (by omega)]
  refine ⟨low, ?_⟩
  by_contra none
  push Not at none
  exact differs (((row_follows ctx changed p .marker p.eval.src.markers).2 a low).2 none)

theorem joined_low (length : p.eval.src.markers.length = 32) {m : Nat} (mem : m ∈ joinedMarkers ctx changed p) :
    m < 32 := length ▸ (changed_named (mem_joinedMarkers.mp mem).1).1

theorem cascade_nodup (once : p.cascade.Nodup) : (evalPass ctx changed p).cascade.Nodup := by
  rw [evalPass_joined, List.nodup_append']
  exact ⟨once, (joinedMarkers_ascending ctx changed p).imp Nat.ne_of_lt,
    fun m listed joined => (mem_joinedMarkers.mp joined).2 listed⟩

variable (acyclic : ∀ m, ¬ Relation.TransGen (dependsOn ctx.setup) m m) {r m : Nat} {front back : List Nat}
include acyclic

/-- R122, R130: what changes in a pass of round `r` depends on a marker of the round before, or on one that a gate has
yet to follow. -/
theorem InRound.changes (h : InRound ctx r (m :: front) back p) {a : Nat}
    (differs : (evalPass ctx [.marker m] { p with cascade := front ++ back }).eval.src.markers.getD a false ≠
      p.eval.src.markers.getD a false) : a < 32 ∧ r < markersBelow ctx.setup a := by
  obtain ⟨low, t, mem, target, touched⟩ := changed_named differs
  refine ⟨h.length ▸ low, ?_⟩
  rcases touched with ⟨l, literal, source⟩ | moved
  · have reads : dependsOn ctx.setup a m := ⟨t, mem, target, .inl ⟨l, literal, List.mem_singleton.mp source⟩⟩
    have head : m < 32 := h.low m (h.list ▸ List.mem_cons_self)
    exact (h.before m List.mem_cons_self).trans_lt (markersBelow_lt acyclic reads head)
  · obtain ⟨src, gates, lag⟩ := h.lag
    rw [evalPass_gates, show PassState.eval { p with cascade := front ++ back } = p.eval from rfl, gates] at moved
    obtain ⟨x, chain, differ⟩ := gateStates_differ moved
    obtain ⟨b, rfl, lowB, late⟩ := lag x differ
    exact late.trans_lt (markersBelow_lt acyclic ⟨t, mem, target, .inr chain⟩ lowB)

/-- R130: a pass takes the head of the list; where it was the last of its round, the next round begins. -/
theorem InRound.pass (h : InRound ctx r (m :: front) back p) :
    let q := evalPass ctx [.marker m] { p with cascade := front ++ back }
    ∃ later, (∀ a ∈ later, r < markersBelow ctx.setup a) ∧
      (front ≠ [] → InRound ctx r front later q) ∧ (front = [] → InRound ctx (r + 1) later [] q) := by
  intro q
  let later := back ++ joinedMarkers ctx [.marker m] { p with cascade := front ++ back }
  have list : q.cascade = front ++ later := (evalPass_joined _ _ _).trans (List.append_assoc _ _ _)
  have length : q.eval.src.markers.length = 32 := (evalPass_markers_length _ _ _).trans h.length
  have once : q.cascade.Nodup := cascade_nodup (h.list ▸ h.once).of_cons
  have low : ∀ a ∈ q.cascade, a < 32 := fun a mem => by
    rcases List.mem_append.mp (evalPass_joined .. ▸ mem) with listed | joined
    · exact h.low a (h.list ▸ List.mem_cons_of_mem m listed)
    · exact joined_low (p := { p with cascade := front ++ back }) h.length joined
  have now : ∀ a ∈ later, r < markersBelow ctx.setup a := fun a mem => by
    rcases List.mem_append.mp mem with listed | joined
    · exact h.now a listed
    · exact (h.changes acyclic (mem_joinedMarkers.mp joined).1).2
  have lag : ∃ src, q.eval.gates = gateStates ctx.setup src ctx.life ctx.standing ∧
      ∀ x, q.eval.src.value x ≠ src.value x → ∃ b, x = .marker b ∧ b < 32 ∧ r + 1 ≤ markersBelow ctx.setup b := by
    refine ⟨p.eval.src, rfl, fun x differ => ?_⟩
    cases x
    case marker b => exact ⟨b, rfl, h.changes acyclic differ⟩
    all_goals exact absurd rfl differ
  refine ⟨later, now, fun _ => ?_, fun last => ?_⟩
  · obtain ⟨src, gates, late⟩ := lag
    exact ⟨list, length, once, low, fun a mem => h.before a (List.mem_cons_of_mem m mem), now, src, gates,
      fun x differ => (late x differ).imp fun b ⟨is, low, more⟩ => ⟨is, low, Nat.le_of_succ_le more⟩⟩
  · subst last
    exact ⟨list.trans (List.append_nil later).symm, length, once, low, now,
      fun _ none => absurd none List.not_mem_nil, lag⟩

/-- R130: 32 markers settle in as many rounds, each of at most 32 passes. -/
theorem InRound.ends {fuel : Nat} (h : InRound ctx r front back p) (begun : front = [] → back = [])
    (enough : front.length + 32 * (31 - r) ≤ fuel) : (evalCascade ctx fuel p).cascade = [] := by
  induction fuel generalizing r front back p with
  | zero =>
    have none : front = [] := List.length_eq_zero_iff.mp (by omega)
    exact h.list.trans (by rw [none, begun none]; rfl)
  | succ fuel ih =>
    cases front with
    | nil =>
      have empty : p.cascade = [] := h.list.trans (by rw [begun rfl]; rfl)
      rw [evalCascade_empty empty, empty]
    | cons m front =>
      rw [List.length_cons] at enough
      obtain ⟨later, now, stays, next⟩ := h.pass acyclic
      have pass : evalCascade ctx (fuel + 1) p =
          evalCascade ctx fuel (evalPass ctx [.marker m] { p with cascade := front ++ back }) := by
        rw [evalCascade, h.list]
        rfl
      rw [pass]
      by_cases last : front = []
      · have round := next last
        have whole := round.list.trans (List.append_nil later)
        have few : later.length ≤ 32 := by
          have sub : later ⊆ List.range 32 := fun a mem => List.mem_range.mpr (round.low a (whole ▸ mem))
          simpa using ((whole ▸ round.once).subperm sub).length_le
        have none : 31 ≤ r → later = [] := fun high => List.eq_nil_iff_forall_not_mem.mpr fun a mem => by
          have most := markersBelow_lt_32 acyclic (round.low a (whole ▸ mem))
          have least := now a mem
          omega
        refine ih round (fun _ => rfl) ?_
        by_cases high : 31 ≤ r
        · rw [none high, List.length_nil]
          omega
        · omega
      · exact ih (stays last) (fun none => absurd none last) (by omega)

/-- R122, R130: where no marker depends on itself, 1056 passes bring a cascade to its end. -/
theorem evalCascade_ends (changed : List Source) {e : Evaluator} (length : e.src.markers.length = 32) :
    (evalCascade ctx 1056 (evalPass ctx changed ⟨e, [], [], [], [], []⟩)).cascade = [] := by
  let p : PassState := ⟨e, [], [], [], [], []⟩
  let q := evalPass ctx changed p
  have joined : q.cascade = joinedMarkers ctx changed p := rfl
  have low : ∀ m ∈ q.cascade, m < 32 := fun m mem => joined_low (p := p) length (joined ▸ mem)
  have once : q.cascade.Nodup := cascade_nodup List.nodup_nil
  have first : InRound ctx 0 q.cascade [] q := by
    refine ⟨(List.append_nil _).symm, (evalPass_markers_length _ _ _).trans length, once, low, fun _ _ => Nat.zero_le _,
      fun _ none => absurd none List.not_mem_nil, e.src, rfl, fun x differ => ?_⟩
    cases x
    case marker b => exact ⟨b, rfl, low b (changed_mem_cascade differ), Nat.zero_le _⟩
    all_goals exact absurd rfl differ
  have few : q.cascade.length ≤ 32 := by
    have sub : q.cascade ⊆ List.range 32 := fun m mem => List.mem_range.mpr (low m mem)
    simpa using (once.subperm sub).length_le
  exact first.ends acyclic (fun _ => rfl) (by omega)

end

/-! ### The counters at the end of an event (R121, R125) -/

section
variable (setup : StationSetup) (p : PassState) (n : Nat)

/-- R121: a COUNT term of counter `n`. -/
def FeedsCounter (t : Term) : Prop := t ∈ setup.terms ∧ t.target = .count n

/-- R121: an event looks at counter `n`: a COUNT term of it was touched, or its gate moved. -/
def CounterLooked : Prop :=
  (∃ i t, setup.terms[i]? = some t ∧ FeedsCounter setup n t ∧ i ∈ p.touched) ∨
    (setup.counter n).gate ∈ p.moved ∧ ∃ t, FeedsCounter setup n t

/-- R121: the count level of counter `n` is ON. -/
def CounterLevel : Prop :=
  ∃ i t, setup.terms[i]? = some t ∧ FeedsCounter setup n t ∧ p.eval.gates.getD t.gate .closed = .opened ∧
    p.eval.results.getD i false = true

/-- R125: the gate of counter `n`, or that of a COUNT term of it, has opened in the event, QUIET or not. -/
def CounterOpened (quiet : Bool) : Prop :=
  ∃ g, (g, quiet) ∈ p.opened ∧ (g = (setup.counter n).gate ∨ ∃ t, FeedsCounter setup n t ∧ t.gate = g)

/-- R121, R125: what the count level was, as a gate that opened decides it. -/
def CounterWas (remembered : Bool) : Prop :=
  CounterOpened setup p n true ∧ CounterLevel setup p n ∨
    ¬ CounterOpened setup p n true ∧ ¬ CounterOpened setup p n false ∧ remembered = true

theorem any_feedsCounter (c : Term → Bool) :
    (setup.terms.any fun t => decide (t.target = .count n) && c t) = true ↔
      ∃ t, FeedsCounter setup n t ∧ c t = true := by
  simp [FeedsCounter, and_assoc]

theorem countLevel_iff : countLevel setup p.eval n = true ↔ CounterLevel setup p n := by
  rw [countLevel, targetValue_iff]
  refine exists₂_congr fun i t => and_congr_right fun at_i => ?_
  simp [FeedsCounter, List.mem_of_getElem? at_i, and_comm]

theorem counterLooked_iff : (setup.terms.any (fun t => decide (t.target = .count n)) &&
      (setup.terms.zipIdx.any (fun (t, i) => decide (t.target = .count n) && p.touched.contains i) ||
        p.moved.contains (setup.counter n).gate)) = true ↔ CounterLooked setup p n := by
  have hit : setup.terms.zipIdx.any (fun (t, i) => decide (t.target = .count n) && p.touched.contains i) = true ↔
      ∃ i t, setup.terms[i]? = some t ∧ FeedsCounter setup n t ∧ i ∈ p.touched := by
    simp only [List.any_eq_true, Prod.exists, List.mem_zipIdx_iff_getElem?, Bool.and_eq_true, decide_eq_true_eq,
      List.contains_iff_mem]
    rw [exists_comm]
    refine exists₂_congr fun i t => and_congr_right fun at_i => ?_
    rw [FeedsCounter, and_iff_right (List.mem_of_getElem? at_i)]
  have fed : setup.terms.any (fun t => decide (t.target = .count n)) = true ↔ ∃ t, FeedsCounter setup n t := by
    simp [FeedsCounter]
  rw [Bool.and_eq_true, Bool.or_eq_true, hit, fed, List.contains_iff_mem, CounterLooked]
  constructor
  · rintro ⟨feeds, touched | moved⟩
    · exact .inl touched
    · exact .inr ⟨moved, feeds⟩
  · rintro (⟨i, t, at_i, feeds, touched⟩ | ⟨moved, feeds⟩)
    · exact ⟨⟨t, feeds⟩, .inl ⟨i, t, at_i, feeds, touched⟩⟩
    · exact ⟨feeds, .inr moved⟩

/-- R125: the gates that opened in an event and concern counter `n`. -/
def concernedGates : List (Nat × Bool) :=
  p.opened.filter fun g => g.1 = (setup.counter n).gate ||
    setup.terms.any fun t => decide (t.target = .count n) && t.gate = g.1

theorem mem_concernedGates {quiet : Bool} : (∃ g, (g, quiet) ∈ concernedGates setup p n) ↔
    CounterOpened setup p n quiet := by
  refine exists_congr fun g => ?_
  rw [concernedGates, List.mem_filter, Bool.or_eq_true, any_feedsCounter, decide_eq_true_eq]
  simp only [decide_eq_true_eq]

/-- R121, R125: what the count level was, as the gates concerned decide it. -/
theorem counterWas_iff (remembered : Bool) :
    (if (concernedGates setup p n).isEmpty then remembered
      else (concernedGates setup p n).any (fun g => g.2) && countLevel setup p.eval n) = true ↔
      CounterWas setup p n remembered := by
  have quiet := mem_concernedGates setup p n (quiet := true)
  have loud := mem_concernedGates setup p n (quiet := false)
  have level := countLevel_iff setup p n
  unfold CounterWas
  rw [← quiet, ← loud, ← level]
  cases concerned : concernedGates setup p n with
  | nil => simp
  | cons g gates =>
    have some : ∃ n b, (n, b) ∈ g :: gates := ⟨g.1, g.2, List.mem_cons_self⟩
    obtain ⟨n, b, mem⟩ := some
    have any : (g :: gates).any (fun g => g.2) = true ↔ ∃ n, (n, true) ∈ g :: gates := by
      simp only [List.any_eq_true, Prod.exists, exists_eq_right]
    rw [List.isEmpty_cons, if_neg Bool.false_ne_true, Bool.and_eq_true, any]
    refine ⟨.inl, fun h => h.resolve_right fun ⟨noQuiet, noLoud, _⟩ => ?_⟩
    cases b
    · exact noLoud ⟨n, mem⟩
    · exact noQuiet ⟨n, mem⟩

/-- R121, R125: counter `n` at the end of an event. -/
theorem settleCount_iff (remembered : Bool) :
    let runs := CounterLooked setup p n ∧ p.eval.gates.getD (setup.counter n).gate .closed = .opened
    ((settleCount setup p n remembered).2 = true ↔
      runs ∧ CounterLevel setup p n ∧ ¬ CounterWas setup p n remembered) ∧
    (runs → ((settleCount setup p n remembered).1 = true ↔ CounterLevel setup p n)) ∧
    (¬ runs → (settleCount setup p n remembered).1 = remembered) := by
  intro runs
  have acts : (setup.terms.any (fun t => decide (t.target = .count n)) &&
      (setup.terms.zipIdx.any (fun (t, i) => decide (t.target = .count n) && p.touched.contains i) ||
        p.moved.contains (setup.counter n).gate) &&
      decide (p.eval.gates.getD (setup.counter n).gate .closed = .opened)) = true ↔ runs := by
    rw [Bool.and_eq_true, counterLooked_iff, decide_eq_true_eq]
  rw [← acts, ← counterWas_iff, ← countLevel_iff]
  have settles : settleCount setup p n remembered = if (setup.terms.any (fun t => decide (t.target = .count n)) &&
      (setup.terms.zipIdx.any (fun (t, i) => decide (t.target = .count n) && p.touched.contains i) ||
        p.moved.contains (setup.counter n).gate) &&
      decide (p.eval.gates.getD (setup.counter n).gate .closed = .opened)) = true then
      (countLevel setup p.eval n, countLevel setup p.eval n &&
        !(if (concernedGates setup p n).isEmpty then remembered
          else (concernedGates setup p n).any (fun g => g.2) && countLevel setup p.eval n))
      else (remembered, false) := rfl
  rw [settles]
  split
  next run => simp only [run, true_and, Bool.and_eq_true, Bool.not_eq_true', Bool.not_eq_true, forall_const,
    not_true_eq_false, false_implies, and_true]
  next rest => simp only [rest, false_and, false_implies, not_false_eq_true, forall_const, and_true, Bool.false_eq_true]

end

/-! ### The event whole (R116, R126, R128) -/

/-- R116: which events hand the value held. -/
theorem isIdle_iff (event : EvalEvent) (src : Sources) : event.isIdle src = true ↔
    ∃ x v, event = .source x v ∧ (∀ p, x ≠ .point p) ∧ src.value x = v := by
  cases event with
  | lifecycle => simp [EvalEvent.isIdle]
  | source x v =>
    have handed : (∃ y w, EvalEvent.source x v = .source y w ∧ (∀ p, y ≠ .point p) ∧ src.value y = w) ↔
        (∀ p, x ≠ .point p) ∧ src.value x = v :=
      ⟨fun ⟨_, _, same, holds⟩ => by cases same; exact holds, fun holds => ⟨x, v, rfl, holds⟩⟩
    rw [handed]
    cases x <;> simp [EvalEvent.isIdle]

/-- The source that an event changes takes its value. -/
def EvalEvent.applied (event : EvalEvent) (src : Sources) : Sources :=
  match event with
  | .source x v => src.put x v
  | .lifecycle => src

/-- The source that an event changes, and OWN-ACTIVE where the lifecycle has changed it (log 14). -/
def EvalEvent.changes (event : EvalEvent) (src : Sources) (own : Bool) : List Source :=
  (match event with
    | .source x _ => [x]
    | .lifecycle => []) ++ if (event.applied src).ownActive = own then [] else [.ownActive]

/-- R116, R126: the sources that an event does not change have the values they had. -/
theorem EvalEvent.value_applied {event : EvalEvent} {src : Sources} {own : Bool} {x : Source}
    (other : x ∉ event.changes src own) :
    ({ event.applied src with ownActive := own } : Sources).value x = src.value x := by
  obtain ⟨source, active⟩ := not_or.mp (List.mem_append.not.mp other)
  have applied : (event.applied src).value x = src.value x := by
    cases event with
    | lifecycle => rfl
    | source y v => exact Sources.value_put (List.mem_singleton.not.mp source) v
  rw [← applied]
  cases x
  case ownActive =>
    by_contra differs
    exact active (by rw [if_neg fun same => differs same.symm]; exact List.mem_singleton.mpr rfl)
  all_goals rfl

section
variable (ctx : EvalContext) (event : EvalEvent) (e : Evaluator)

/-- R128: the passes of an event, to the end of its cascade. -/
def eventPasses : PassState :=
  evalCascade ctx 1056 (evalPass ctx (event.changes e.src (decide (ctx.life = .active)))
    ⟨{ e with src := { event.applied e.src with ownActive := decide (ctx.life = .active) } }, [], [], [], [], []⟩)

/-- R121: the counters at the end of an event. -/
def eventCounts : List (Bool × Bool) :=
  (List.range 8).map fun n => settleCount ctx.setup (eventPasses ctx event e) n (e.countRemembered.getD n false)

variable {ctx event e}

theorem takeEvent_whole (anew : ¬ event.isIdle e.src = true) : takeEvent ctx event e =
    ⟨{ (eventPasses ctx event e).eval with countRemembered := (eventCounts ctx event e).map Prod.fst },
      (eventPasses ctx event e).requests,
      (List.range 8).filter fun n => ((eventCounts ctx event e).getD n (false, false)).2⟩ := by
  unfold takeEvent
  rw [if_neg anew]
  rfl

/-- R121, R129: what an event leaves a counter to remember, and whether it is handed a count. -/
theorem takeEvent_counter (anew : ¬ event.isIdle e.src = true) {n : Nat} (low : n < 8) :
    let settled := settleCount ctx.setup (eventPasses ctx event e) n (e.countRemembered.getD n false)
    (takeEvent ctx event e).eval.countRemembered.getD n false = settled.1 ∧
      (n ∈ (takeEvent ctx event e).counted ↔ settled.2 = true) := by
  intro settled
  have count : (eventCounts ctx event e)[n]? = some settled := by
    rw [eventCounts, List.getElem?_map, List.getElem?_range low]
    rfl
  rw [takeEvent_whole anew]
  exact ⟨by simp [count], by simp [count, low]⟩

/-- R116, R117, R130: after an event whose cascade has ended the results agree with the values held. -/
theorem eventPasses_agree {waiting : List Source} (ended : (eventPasses ctx event e).cascade = [])
    (agree : ResultsAgree ctx.setup e (event.changes e.src (decide (ctx.life = .active)) ++ waiting) []) :
    ResultsAgree ctx.setup (eventPasses ctx event e).eval waiting [] := by
  have first := resultsAgree_pass (ctx := ctx) (p := ⟨{ e with src :=
    { event.applied e.src with ownActive := decide (ctx.life = .active) } }, [], [], [], [], []⟩)
    (resultsAgree_sources agree rfl (fun _ mem => mem) fun x free =>
      EvalEvent.value_applied fun change => free (List.mem_append_left _ change))
  exact ended ▸ resultsAgree_cascade 1056 first

end

/-- Settles O53: the cascade pass by pass and its end, the results that agree, and the event with its counters. -/
theorem evaluatorEventsAreTakenWhole : Obligations.EvaluatorEventsAreTakenWhole := by
  refine ⟨fun ctx fuel m rest p => ⟨fun empty => evalCascade_empty empty fuel, fun list => ?_⟩,
    fun ctx changed e length acyclic => evalCascade_ends acyclic changed length,
    fun ctx changed waiting p agree => resultsAgree_pass agree,
    fun setup e waiting changes agree => ?_, fun ctx event e => ?_⟩
  · rw [evalCascade, list]
  · refine resultsAgree_sources agree rfl (fun _ mem => List.mem_append_left _ mem) fun x free => ?_
    refine Sources.value_putPoints (fun c mem same => free (List.mem_append_right _ ?_)) e.src
    exact same ▸ List.mem_map_of_mem mem
  · intro idle src own changed begun p o
    refine ⟨fun hands => if_pos ((isIdle_iff event e.src).mpr hands), fun hands => ?_⟩
    have anew : ¬ event.isIdle e.src = true := fun h => hands ((isIdle_iff event e.src).mp h)
    have whole : o = _ := takeEvent_whole anew
    have passes : p = eventPasses ctx event e := by cases event <;> rfl
    have changes : changed = event.changes e.src own := by cases event <;> rfl
    rw [passes, changes]
    refine ⟨by rw [whole], by rw [whole], by rw [whole]; simp [eventCounts],
      by rw [whole]; exact List.pairwise_lt_range.filter _,
      fun n mem => by rw [whole] at mem; exact List.mem_range.mp (List.mem_filter.mp mem).1,
      fun waiting ended agree => ?_, fun n low => ?_⟩
    · have agrees := eventPasses_agree ended agree
      rw [whole]
      exact agrees
    · intro feeds gate looked runs level opened was
      obtain ⟨remembered, counted⟩ := takeEvent_counter (ctx := ctx) anew low
      obtain ⟨counts, on, off⟩ := settleCount_iff ctx.setup (eventPasses ctx event e) n (e.countRemembered.getD n false)
      rw [show o.eval.countRemembered.getD n false = _ from remembered]
      exact ⟨counted.trans counts, on, off⟩

end Sys2Proof.Machine

/-! SUPPORT. The loader: a load that fails, and the handover to LISTEN with the inputs as they start (R133, R147, R152,
R164, R178, R180 to R182). -/

namespace Sys2Proof.Machine

/-! ### The transfers (R178) -/

section
variable {s : State} {answer : Option (List Byte)}

theorem exec_configurationRead (awake : s.loader.held = false) :
    exec (.configurationRead answer) s = (s.takeTransfer answer).answer := by
  show State.answer (if s.loader.held then s else s.takeTransfer answer) = _
  rw [if_neg (by simp [awake])]

/-- R178: a transfer of `n` bytes with a complete answer. -/
theorem completed_some {bytes : List Byte} {n : Nat} (enough : n ≤ bytes.length) :
    completed? (some bytes) n = some (bytes.take n) := if_pos enough

theorem completed_short {bytes : List Byte} {n : Nat} (short : bytes.length < n) : completed? (some bytes) n = none :=
  if_neg (Nat.not_le.mpr short)

section
variable {h bytes : List Byte}

/-- R178: the first transfer. -/
theorem takeTransfer_header (phase : s.loader.phase = .header) :
    (completed? answer 3 = some bytes → s.takeTransfer answer = s.takeHeader bytes) ∧
    (completed? answer 3 = none → s.takeTransfer answer = s.loadFails ⟨1, 0⟩) := by
  constructor <;> intro done <;> simp only [State.takeTransfer, phase, done]

/-- R178: the second transfer. -/
theorem takeTransfer_body (phase : s.loader.phase = .body h) :
    (completed? answer (Block.word h 1 - 3) = some bytes → s.takeTransfer answer = s.takeBlock (h ++ bytes)) ∧
    (completed? answer (Block.word h 1 - 3) = none → s.takeTransfer answer = s.loadFails ⟨1, 0⟩) := by
  constructor <;> intro done <;> simp only [State.takeTransfer, phase, done]

/-- R178 to R180: a complete block. -/
theorem takeBlock_fails {failure : LoadFailure} (fails : loadBlock bytes = .error failure) :
    s.takeBlock bytes = s.loadFails failure := by
  simp only [State.takeBlock, fails]

theorem takeBlock_loads {c : StationSetup} (loads : loadBlock bytes = .ok c) : s.takeBlock bytes = s.handover c := by
  simp only [State.takeBlock, loads]

end

/-- R178: the tag and the length stand in the first three bytes. -/
theorem header_take {bytes : List Byte} : Block.at (bytes.take 3) 0 = Block.at bytes 0 ∧
    Block.word (bytes.take 3) 1 = Block.word bytes 1 := by
  simp [Block.word, Block.at]

/-- R156, R157, R180, R181: what a load that fails leaves once its hand-offs have been taken. -/
theorem failsLoad_of {failure : LoadFailure} (awake : s.loader.held = false)
    (fails : s.takeTransfer answer = s.loadFails failure) : FailsLoad s answer failure.code failure.entry := by
  have reported : Untouched s (s.report .configInvalid (some (.config failure.code failure.entry))) :=
    report_untouched s _ _
  have taken := finish_untouched (s.loadFails failure)
  have kept := finish_keepsRecord (s.loadFails failure)
  have record : (s.loadFails failure).fault.record = match s.fault.record with
      | some r => some r
      | none => some ⟨.configInvalid, some (.config failure.code failure.entry), s.timeBase, s.lifecycle⟩ :=
    congrArg FaultUnit.record (report_fault s _ _)
  refine ⟨(s.loadFails failure).finish, by rw [exec_configurationRead awake, fails]; rfl, taken.lifecycle,
    congrArg Loader.config taken.loader, congrArg Loader.phase taken.loader, ?_, taken.image.trans reported.image,
    taken.roster.trans reported.roster, taken.commit.trans reported.commit, fun absent => kept _ ?_,
    fun r present => kept r ?_⟩
  · obtain ⟨r, present⟩ : ∃ r, (s.loadFails failure).fault.record = some r := by
      rw [record]
      split <;> exact ⟨_, rfl⟩
    rw [FaultUnit.line, kept r present]
    rfl
  · rw [record, absent]
  · rw [record, present]

end

/-! ### The handover (R147, R152, R164, R182) -/

/-- R147: an input at the handover, by its line and its filter time. -/
theorem atHandover_startedInput (i : FieldInput) (filter : Nat) : i.atHandover filter = startedInput filter i := by
  obtain ⟨line, filtered, run⟩ := i
  unfold startedInput
  cases line
  · rfl
  · by_cases instant : filter = 0 <;> simp [FieldInput.atHandover, FieldInput.lineChange, instant]

/-- R147: the source change that input `n` hands on as it starts. -/
def inputChange? (s : State) (n : Nat) : Option HandOff :=
  match s.field.inputs[n]? with
  | some i =>
    let filtered := (startedInput (s.setup.filter n) i).filtered
    if filtered = i.filtered then none else some (.source (.input n) filtered)
  | none => none

/-- The inputs once the first `k` of them have started. -/
def startedInputs (s : State) (k : Nat) : List FieldInput :=
  s.field.inputs.mapIdx fun n i => if n < k then startedInput (s.setup.filter n) i else i

/-- Input `n` once the first `k` have started. -/
theorem startedInputs_getElem? (s : State) (k n : Nat) : (startedInputs s k)[n]? =
    s.field.inputs[n]?.map fun i => if n < k then startedInput (s.setup.filter n) i else i := by
  rw [startedInputs, List.getElem?_mapIdx]

/-- R147: one more input starts, where there is one. -/
theorem startedInputs_succ (s : State) (k : Nat) : startedInputs s (k + 1) =
    match s.field.inputs[k]? with
    | some i => (startedInputs s k).set k (startedInput (s.setup.filter k) i)
    | none => startedInputs s k := by
  have others : ∀ n, n ≠ k → (startedInputs s (k + 1))[n]? = (startedInputs s k)[n]? := fun n other => by
    have same : n < k + 1 ↔ n < k := by omega
    simp only [startedInputs_getElem?, same]
  have length : (startedInputs s k).length = s.field.inputs.length := List.length_mapIdx
  refine List.ext_getElem? fun n => ?_
  cases at_k : s.field.inputs[k]? with
  | none =>
    by_cases here : n = k
    · subst here
      simp only [startedInputs_getElem?, at_k, Option.map_none]
    · exact others n here
  | some i =>
    by_cases here : n = k
    · subst here
      have low : n < (startedInputs s n).length := length ▸ (List.getElem?_eq_some_iff.mp at_k).1
      simp only [List.getElem?_set_self low, startedInputs_getElem?, at_k, Option.map_some, Nat.lt_succ_self, if_true]
    · rw [others n here]
      exact (List.getElem?_set_ne (Ne.symm here)).symm

/-- The station once its first `k` inputs have started. -/
def State.inputsStarted (s : State) (k : Nat) : State :=
  { s with
    field := { s.field with inputs := startedInputs s k }
    agenda := s.agenda ++ (List.range k).filterMap (inputChange? s) }

theorem inputsStarted_zero (s : State) : s.inputsStarted 0 = s := by
  have inputs : startedInputs s 0 = s.field.inputs :=
    List.ext_getElem? fun n => by simp [startedInputs_getElem?]
  simp [State.inputsStarted, inputs]

/-- R147: one more input starts, and hands on its source change. -/
theorem inputsStarted_succ (s : State) (k : Nat) : s.inputsStarted (k + 1) =
    match (s.inputsStarted k).field.inputs[k]? with
    | some i => (s.inputsStarted k).putInput k i (i.atHandover ((s.inputsStarted k).setup.filter k))
    | none => s.inputsStarted k := by
  have here : (s.inputsStarted k).field.inputs[k]? = s.field.inputs[k]? := by
    refine (startedInputs_getElem? s k k).trans ?_
    simp
  have setup : (s.inputsStarted k).setup = s.setup := rfl
  rw [here, State.inputsStarted, startedInputs_succ, List.range_succ, List.filterMap_append]
  cases at_k : s.field.inputs[k]? with
  | none => simp [inputChange?, at_k, State.inputsStarted]
  | some i =>
    dsimp only
    have change : inputChange? s k = if (startedInput (s.setup.filter k) i).filtered = i.filtered then none
        else some (.source (.input k) (startedInput (s.setup.filter k) i).filtered) := by
      rw [inputChange?, at_k]
    rw [atHandover_startedInput, setup, State.putInput]
    by_cases same : (startedInput (s.setup.filter k) i).filtered = i.filtered
    · rw [if_pos same] at change
      rw [if_pos same, List.filterMap_cons_none change, List.filterMap_nil, List.append_nil]
      rfl
    · rw [if_neg same] at change
      rw [if_neg same, List.filterMap_cons_some change, List.filterMap_nil, ← List.append_assoc]
      rfl

/-- R147, R182: the inputs start from their lines. -/
theorem startInputs_eq (s : State) : s.startInputs = s.inputsStarted 16 := by
  have upTo : ∀ k, (List.range k).foldl (fun s n =>
      match s.field.inputs[n]? with
      | some i => s.putInput n i (i.atHandover (s.setup.filter n))
      | none => s) s = s.inputsStarted k := fun k => by
    induction k with
    | zero => exact (inputsStarted_zero s).symm
    | succ k ih =>
      rw [List.range_succ, List.foldl_append, ih, inputsStarted_succ]
      rfl
  exact upTo 16

/-- R64, R133, R147, R152, R164, R182: the handover block by block. -/
theorem handover_eq (s : State) (c : StationSetup) : s.handover c = handedOver s c := by
  have capture : s.capture.atHandover c.capture.autoArm =
      if c.capture.autoArm = true ∧ s.capture.mode ≠ .frozen then { s.capture with mode := .armed }
      else s.capture := by
    simp [CaptureUnit.atHandover]
  have whole : s.handover c = ((s.configured c).enterListen 0).startInputs := rfl
  rw [whole, startInputs_eq]
  simp only [State.inputsStarted, startedInputs, handedOver, State.configured, State.enterListen, capture]
  rfl

/-- Settles O5: the first transfer, the second, and the block that is checked. -/
theorem configurationIsReadAndHandedOver : Obligations.ConfigurationIsReadAndHandedOver := by
  intro s awake
  refine ⟨fun bytes phase long least most => ?_, fun answer phase => ?_,
    fun phase => ?_, fun bytes phase short => ?_, fun bytes phase long range => ?_, fun h phase => ?_,
    fun h bytes phase short => ?_, fun h bytes failure phase long fails => ?_, fun h bytes c phase long loads => ?_⟩
  · have inRange : lengthInRange (Block.word (bytes.take 3) 1) = true := by
      rw [header_take.2]
      exact decide_eq_true ⟨least, most⟩
    obtain ⟨complete, -⟩ := takeTransfer_header (answer := some bytes) (bytes := bytes.take 3) phase
    rw [exec_configurationRead awake, complete (completed_some long), State.takeHeader, if_pos inRange]
    exact answer_settles _
  · have waits : s.takeTransfer answer = s := by simp only [State.takeTransfer, phase]
    rw [exec_configurationRead awake, waits]
    exact answer_settles s
  · obtain ⟨-, incomplete⟩ := takeTransfer_header (answer := none) (bytes := []) phase
    exact failsLoad_of awake (incomplete rfl)
  · obtain ⟨-, incomplete⟩ := takeTransfer_header (answer := some bytes) (bytes := []) phase
    exact failsLoad_of awake (incomplete (completed_short short))
  · have outOfRange : ¬ lengthInRange (Block.word (bytes.take 3) 1) = true := by
      rw [header_take.2, lengthInRange, decide_eq_true_eq]
      omega
    obtain ⟨complete, -⟩ := takeTransfer_header (answer := some bytes) (bytes := bytes.take 3) phase
    have fails : s.takeTransfer (some bytes) = s.loadFails ⟨if Block.at bytes 0 = 1 then 3 else 2, 0⟩ := by
      rw [complete (completed_some long), State.takeHeader, if_neg outOfRange, header_take.1]
      by_cases tag : Block.at bytes 0 = 1 <;> simp [tag]
    exact failsLoad_of awake fails
  · obtain ⟨-, incomplete⟩ := takeTransfer_body (answer := none) (bytes := []) phase
    exact failsLoad_of awake (incomplete rfl)
  · obtain ⟨-, incomplete⟩ := takeTransfer_body (answer := some bytes) (bytes := []) phase
    exact failsLoad_of awake (incomplete (completed_short short))
  · obtain ⟨complete, -⟩ := takeTransfer_body (answer := some bytes) phase
    exact failsLoad_of awake ((complete (completed_some long)).trans (takeBlock_fails fails))
  · obtain ⟨complete, -⟩ := takeTransfer_body (answer := some bytes) phase
    rw [exec_configurationRead awake, complete (completed_some long), takeBlock_loads loads, handover_eq]
    exact answer_settlesBy _

end Sys2Proof.Machine

/-! SUPPORT. The checks of a configuration block: the check word, the walk of the terms and the fields of the entries,
each as the rules say it (R118, R178 to R180). -/

namespace Sys2Proof.Machine

/-! ### The check word and the walk (R178) -/

theorem Block.at_lt (b : Block) (n : Nat) : b.at n < 256 := (b.getD n 0).isLt

theorem Block.at_eq {b : Block} {n : Nat} (low : n < b.length) : b.at n = b[n].toNat := by
  rw [Block.at, List.getD_eq_getElem _ _ low]

/-- R178: the sum over the bytes before the check word. -/
theorem checkSum_take {b : Block} {n : Nat} (low : n ≤ b.length) :
    checkSum (b.take n) = ((List.range n).map fun i => b.at i * (i + 1)).sum % 2 ^ 32 := by
  have terms : ((b.take n).zipIdx.map fun (x, i) => x.toNat * (i + 1)) =
      (List.range n).map fun i => b.at i * (i + 1) := by
    refine List.ext_getElem (by simp [low]) fun i _ inRange => ?_
    have here : i < b.length := (List.length_range ▸ List.length_map (as := List.range n) _ ▸ inRange).trans_le low
    simp [Block.at_eq here]
  rw [checkSum, terms]

/-- R178: the check word is that of the bytes before it. -/
theorem checkWordOk_iff (b : Block) : checkWordOk b = true ↔
    2 ^ 24 * b.at (b.length - 4) + 2 ^ 16 * b.at (b.length - 4 + 1) + 2 ^ 8 * b.at (b.length - 4 + 2) +
        b.at (b.length - 4 + 3) =
      ((List.range (b.length - 4)).map fun i => b.at i * (i + 1)).sum % 2 ^ 32 := by
  rw [checkWordOk, decide_eq_true_eq, checkSum_take (Nat.sub_le _ _), Block.word, Block.word]
  have word : 65536 * (256 * b.at (b.length - 4) + b.at (b.length - 4 + 1)) +
      (256 * b.at (b.length - 4 + 2) + b.at (b.length - 4 + 2 + 1)) =
      2 ^ 24 * b.at (b.length - 4) + 2 ^ 16 * b.at (b.length - 4 + 1) + 2 ^ 8 * b.at (b.length - 4 + 2) +
        b.at (b.length - 4 + 3) := by ring
  rw [word]

/-- R178: a term that fits is walked over. -/
theorem walkTerms_fits {b : Block} {t : Nat} (fits : TermFits b t) (n : Nat) :
    walkTerms b (b.length - 4) (n + 1) t (termPlace b t) =
      (walkTerms b (b.length - 4) n (t + 1) (termPlace b (t + 1))).map (termPlace b t :: ·) := by
  obtain ⟨head, one, four⟩ := fits
  rw [walkTerms, if_neg (Nat.not_lt.mpr head)]
  dsimp only
  rw [if_neg (by omega), show termPlace b t + 3 + 2 * (b.at (termPlace b t + 2) % 8) = termPlace b (t + 1) from rfl]
  cases walkTerms b (b.length - 4) n (t + 1) (termPlace b (t + 1)) <;> rfl

/-- R178: the walk stops at a term that does not fit (log 11). -/
theorem walkTerms_stops {b : Block} {t : Nat} (stops : ¬ TermFits b t) (n : Nat) :
    walkTerms b (b.length - 4) (n + 1) t (termPlace b t) =
      .error (if b.length - 4 < termPlace b t + 3 then 63 else 64 + t) := by
  rw [walkTerms]
  by_cases head : b.length - 4 < termPlace b t + 3
  · rw [if_pos head, if_pos head]
  · have literals : b.at (termPlace b t + 2) % 8 < 1 ∨ 4 < b.at (termPlace b t + 2) % 8 := by
      by_contra most
      exact stops ⟨by omega, by omega, by omega⟩
    rw [if_neg head, if_neg head]
    exact if_pos literals

/-- R178: the walk over terms that fit. -/
theorem walkTerms_all {b : Block} (n t : Nat) (fits : ∀ u, t ≤ u → u < t + n → TermFits b u) :
    walkTerms b (b.length - 4) n t (termPlace b t) =
      if termPlace b (t + n) = b.length - 4 then .ok ((List.range' t n).map (termPlace b)) else .error 63 := by
  induction n generalizing t with
  | zero => rfl
  | succ n ih =>
    rw [walkTerms_fits (fits t le_rfl (by omega)), ih (t + 1) fun u le lt => fits u (by omega) (by omega),
      show t + 1 + n = t + (n + 1) by omega]
    split_ifs <;> rfl

/-- R178: the walk up to the first term that does not fit. -/
theorem walkTerms_first {b : Block} {v : Nat} (stops : ¬ TermFits b v) (n t : Nat) (le : t ≤ v) (lt : v < t + n)
    (fits : ∀ u, t ≤ u → u < v → TermFits b u) :
    walkTerms b (b.length - 4) n t (termPlace b t) =
      .error (if b.length - 4 < termPlace b v + 3 then 63 else 64 + v) := by
  induction n generalizing t with
  | zero => omega
  | succ n ih =>
    by_cases here : t = v
    · subst here
      exact walkTerms_stops stops n
    · rw [walkTerms_fits (fits t le_rfl (by omega)),
        ih (t + 1) (by omega) (by omega) fun u le lt => fits u (by omega) lt]
      rfl

/-- R178, R179: where the terms of a block stand. -/
def termPlaces (b : Block) : List Nat := (List.range (b.at 163)).map (termPlace b)

theorem termPlaces_length (b : Block) : (termPlaces b).length = b.at 163 := by simp [termPlaces]

theorem termPlaces_getElem? {b : Block} {t : Nat} (low : t < b.at 163) :
    (termPlaces b)[t]? = some (termPlace b t) := by
  rw [termPlaces, List.getElem?_map, List.getElem?_range low]
  rfl

/-! ### The load by its checks (R178, R180) -/

section
variable {b : Block}

theorem loadBlock_tag (tag : b.at 0 ≠ 1) : loadBlock b = .error ⟨2, 0⟩ := if_pos tag

theorem loadBlock_checkWord (tag : b.at 0 = 1) (wrong : ¬ checkWordOk b = true) : loadBlock b = .error ⟨4, 0⟩ := by
  rw [loadBlock, if_neg (not_not.mpr tag), if_pos (by simp [wrong])]

theorem loadBlock_walk_fails {e : Nat} (tag : b.at 0 = 1) (word : checkWordOk b = true)
    (fails : termOffsets b = .error e) : loadBlock b = .error ⟨3, e⟩ := by
  simp [loadBlock, tag, word, fails]

theorem termOffsets_walk (few : b.at 163 ≤ 64) :
    termOffsets b = walkTerms b (b.length - 4) (b.at 163) 0 (termPlace b 0) := if_neg (Nat.not_lt.mpr few)

theorem termOffsets_ok (few : b.at 163 ≤ 64) (fits : ∀ t, t < b.at 163 → TermFits b t)
    (ends : termPlace b (b.at 163) = b.length - 4) : termOffsets b = .ok (termPlaces b) := by
  rw [termOffsets_walk few, walkTerms_all _ _ fun u _ lt => fits u (by omega), Nat.zero_add, if_pos ends, termPlaces,
    List.range_eq_range']

end

/-! ### The fields of an entry (R179, R180) -/

/-- R179, R180: a literal field is judged by its kind. -/
theorem literalInRange_iff (b : Block) (place : Nat) (required : Bool) :
    literalInRange b place required = true ↔ LiteralFits b place required := by
  have index := b.at_lt (place + 1)
  have kind : b.at place % 16 < 16 := Nat.mod_lt _ (by decide)
  unfold literalInRange LiteralFits
  dsimp only
  rw [Bool.and_eq_true, decide_eq_true_eq]
  refine and_congr_right fun _ => ?_
  generalize b.at place % 16 = k at kind ⊢
  interval_cases k <;> simp [indexInRange, isStation, index]

/-- A clause about the entries from `base` on says what it says of the entry at hand. -/
theorem forall_entry_in {P : Nat → Prop} {base n k : Nat} (low : n < k) :
    (∀ m, m < k → base + n = base + m → P m) ↔ P n :=
  ⟨fun all => all n low rfl, fun holds _ _ same => (Nat.add_left_cancel same) ▸ holds⟩

/-- A clause about the entries from `base` on says nothing of an entry that is not among them. -/
theorem forall_entry_out {P : Nat → Prop} {base entry k : Nat} (out : entry < base ∨ base + k ≤ entry) :
    (∀ m, m < k → entry = base + m → P m) ↔ True :=
  iff_true_intro fun _ _ _ => by omega

theorem entry_other {P : Prop} {entry at_ : Nat} (other : entry ≠ at_) : (entry = at_ → P) ↔ True :=
  iff_true_intro fun same => absurd same other

/-- R179: an entry of the block is in range where every field of it is. -/
theorem entryInRange_iff {b : Block} {entry : Nat} (low : entry < 64 + b.at 163) :
    entryInRange b (termPlaces b) entry = true ↔ EntryFits b entry := by
  unfold EntryFits entryInRange
  split_ifs with zero filters outputs gates timers counters capture rest
  · subst zero
    simp (disch := omega) only [entry_other]
    simp [and_assoc]
  · obtain ⟨n, rfl⟩ := Nat.exists_eq_add_of_le (show 1 ≤ entry by omega)
    simp (disch := omega) only [entry_other, forall_entry_in]
    simp [show 5 + (1 + n) = 6 + n by omega]
  · obtain ⟨n, rfl⟩ := Nat.exists_eq_add_of_le (show 17 ≤ entry by omega)
    simp (disch := omega) only [entry_other, forall_entry_in, forall_entry_out]
    simp [show 22 + 2 * n + 1 = 23 + 2 * n by omega, and_assoc]
  · obtain ⟨n, rfl⟩ := Nat.exists_eq_add_of_le (show 29 ≤ entry by omega)
    simp (disch := omega) only [entry_other, forall_entry_in, forall_entry_out]
    simp [show 46 + 4 * n + 2 = 48 + 4 * n by omega, show 46 + 4 * n + 3 = 49 + 4 * n by omega, literalInRange_iff,
      and_assoc]
  · obtain ⟨n, rfl⟩ := Nat.exists_eq_add_of_le (show 37 ≤ entry by omega)
    simp (disch := omega) only [entry_other, forall_entry_in, forall_entry_out]
    simp [show 78 + 3 * n + 1 = 79 + 3 * n by omega, and_assoc]
  · obtain ⟨n, rfl⟩ := Nat.exists_eq_add_of_le (show 53 ≤ entry by omega)
    simp (disch := omega) only [entry_other, forall_entry_in, forall_entry_out]
    simp [show 126 + 4 * n + 2 = 128 + 4 * n by omega, show 126 + 4 * n + 3 = 129 + 4 * n by omega, and_assoc]
  · subst capture
    simp (disch := omega) only [entry_other, forall_entry_out]
    simp [literalInRange_iff, and_assoc]
  · simp (disch := omega) only [entry_other, forall_entry_out]
    simp
  · obtain ⟨t, rfl⟩ := Nat.exists_eq_add_of_le (show 64 ≤ entry by omega)
    have term : t < b.at 163 := by omega
    have place : (termPlaces b).getD t 0 = termPlace b t := by
      rw [List.getD_eq_getElem?_getD, termPlaces_getElem? term, Option.getD_some]
    simp (disch := omega) only [entry_other, forall_entry_in, forall_entry_out]
    simp [place, literalInRange_iff, and_assoc, -List.getD_eq_getElem?_getD]

end Sys2Proof.Machine

/-! SUPPORT. The content checks of a configuration block over its entries and terms: each reports the lowest entry that
fails it (R118, R179, R180). -/

namespace Sys2Proof.Machine

/-! ### The lowest entry that fails (R180) -/

/-- R180: what a check reports is the lowest of the entries that fail it. -/
def ReportsLowest (found : Option Nat) (fails : Nat → Prop) : Prop :=
  ∀ e, found = some e ↔ fails e ∧ ∀ d, d < e → ¬ fails d

section
variable {found : Option Nat} {fails : Nat → Prop}

theorem ReportsLowest.none_iff (h : ReportsLowest found fails) : found = none ↔ ∀ e, ¬ fails e := by
  constructor
  · intro none e failed
    induction e using Nat.strong_induction_on with
    | _ e lower => exact nomatch none.symm.trans ((h e).mpr ⟨failed, lower⟩)
  · intro none
    cases found with
    | none => rfl
    | some e => exact absurd ((h e).mp rfl).1 (none e)

theorem ReportsLowest.congr {fails' : Nat → Prop} (h : ReportsLowest found fails) (same : ∀ e, fails e ↔ fails' e) :
    ReportsLowest found fails' := by
  rwa [show fails' = fails from funext fun e => propext (same e).symm]

theorem reportsLowest_none (clean : ∀ e, ¬ fails e) : ReportsLowest none fails :=
  fun e => ⟨nofun, fun ⟨failed, _⟩ => absurd failed (clean e)⟩

theorem reportsLowest_some {e : Nat} (failed : fails e) (lowest : ∀ d, d < e → ¬ fails d) :
    ReportsLowest (some e) fails := by
  refine fun d => ⟨fun same => ?_, fun ⟨failed', lowest'⟩ => congrArg some ?_⟩
  · cases same
    exact ⟨failed, lowest⟩
  · rcases Nat.lt_trichotomy e d with lt | same | lt
    · exact absurd failed (lowest' e lt)
    · exact same
    · exact absurd failed' (lowest d lt)

/-- A search from 0 upwards. -/
theorem reportsLowest_range (n : Nat) (p : Nat → Bool) :
    ReportsLowest ((List.range n).find? p) fun e => e < n ∧ p e = true := by
  intro e
  rw [List.find?_range_eq_some, List.mem_range]
  constructor
  · rintro ⟨holds, low, before⟩
    exact ⟨⟨low, holds⟩, fun d lt ⟨_, earlier⟩ => absurd (before d lt) (by simp [earlier])⟩
  · rintro ⟨⟨low, holds⟩, before⟩
    exact ⟨holds, low, fun d lt => by simpa using fun earlier => before d lt ⟨by omega, earlier⟩⟩

/-- A search whose places are entries from `base` on. -/
theorem ReportsLowest.shift (h : ReportsLowest found fails) (base : Nat) :
    ReportsLowest (found.map (base + ·)) fun e => ∃ n, e = base + n ∧ fails n := by
  cases found with
  | none =>
    refine reportsLowest_none fun e => ?_
    rintro ⟨n, -, failed⟩
    exact h.none_iff.mp rfl n failed
  | some n =>
    obtain ⟨failed, lowest⟩ := (h n).mp rfl
    refine reportsLowest_some ⟨n, rfl, failed⟩ fun d lt => ?_
    rintro ⟨m, rfl, failed'⟩
    exact lowest m (Nat.lt_of_add_lt_add_left lt) failed'

/-- A search that goes on with another where it finds nothing. -/
theorem ReportsLowest.orElse {found' : Option Nat} {fails' : Nat → Prop} (h : ReportsLowest found fails)
    (h' : ReportsLowest found' fails') (order : ∀ e e', fails e → fails' e' → e < e') :
    ReportsLowest (found.or found') fun e => fails e ∨ fails' e := by
  cases found with
  | none =>
    have none := h.none_iff.mp rfl
    exact h'.congr fun e => (or_iff_right (none e)).symm
  | some e =>
    obtain ⟨failed, lowest⟩ := (h e).mp rfl
    refine reportsLowest_some (.inl failed) fun d lt failed' => failed'.elim (lowest d lt) fun later => ?_
    exact absurd (order e d failed later) (Nat.lt_asymm lt)

end

/-! ### RANGE and CLASS (R118, R179, R180) -/

/-- R180, code 5. -/
theorem rangeFailure_reports (b : Block) (c : StationSetup) :
    ReportsLowest (rangeFailure? b (termPlaces b)) (BlockFails b c 5) := by
  rw [rangeFailure?, termPlaces_length]
  refine (reportsLowest_range _ _).congr fun e => and_congr_right fun low => ?_
  rw [← entryInRange_iff low]
  simp

/-- R1: the points of level classes are 0 to 175. -/
theorem pointClass?_level {p : Nat} : (pointClass? p = some .any ∨ pointClass? p = some .all) ↔ p < 176 := by
  unfold pointClass?
  split_ifs with any all held count
  · exact iff_of_true (.inl rfl) (any.trans (by decide))
  · exact iff_of_true (.inr rfl) all
  all_goals exact iff_of_false (by simp) all

/-- R1: the held-class points are 176 to 223. -/
theorem pointClass?_eq_held {p : Nat} : pointClass? p = some .held ↔ 176 ≤ p ∧ p < 224 := by
  constructor
  · unfold pointClass?
    split_ifs with any all held count
    · simp
    · simp
    · exact fun _ => ⟨Nat.not_lt.mp all, held⟩
    · simp
    · simp
  · exact fun ⟨low, h⟩ => pointClass?_held low h

/-- R118: a target that its kind allows. -/
theorem targetAllowed_iff (c : StationSetup) (target : Target) :
    targetAllowed c target = true ↔ TargetFits c target := by
  cases target with
  | contribute p => exact decide_eq_true_iff.trans pointClass?_level
  | set p | clear p => exact decide_eq_true_iff.trans pointClass?_eq_held
  | pulse p => exact decide_eq_true_iff.trans pointClass?_eq_count
  | _ => simp [targetAllowed, TargetFits]

/-- R180, code 6. -/
theorem classFailure_reports (b : Block) (c : StationSetup) : ReportsLowest (classFailure? c) (BlockFails b c 6) := by
  have search : ReportsLowest (c.terms.findIdx? fun t => !targetAllowed c t.target) fun t =>
      ∃ term, c.terms[t]? = some term ∧ ¬ TargetFits c term.target := by
    intro t
    simp only [List.findIdx?_eq_some_iff_getElem, Bool.not_eq_true', List.getElem?_eq_some_iff, ← targetAllowed_iff]
    constructor
    · rintro ⟨low, failed, before⟩
      refine ⟨⟨_, ⟨low, rfl⟩, by simp [failed]⟩, ?_⟩
      rintro d lt ⟨term, ⟨_, rfl⟩, failed'⟩
      exact before d lt (by simpa using failed')
    · rintro ⟨⟨term, ⟨low, rfl⟩, failed⟩, before⟩
      exact ⟨low, by simpa using failed, fun d lt failed' => before d lt ⟨_, ⟨by omega, rfl⟩, by simp [failed']⟩⟩
  refine (search.shift 64).congr fun e => ?_
  simp [BlockFails]

/-! ### CONTRIBUTION (R180, code 7) -/

/-- R180: the own contribution point that a term names. -/
def Term.contributed? (t : Term) : Option Point :=
  match t.target with
  | .contribute p => some p
  | _ => none

theorem contributionsOf_eq (c : StationSetup) (n : Nat) :
    contributionsOf c n = c.faultPoint.toList ++ (c.terms.take n).filterMap Term.contributed? := rfl

/-- The points counted stand each once. -/
theorem length_eq_dedup {counted named : List Point} (ascends : counted.Pairwise (· < ·))
    (same : ∀ p, p ∈ counted ↔ p ∈ named) : counted.length = named.dedup.length := by
  have once : counted.Nodup := ascends.imp Nat.ne_of_lt
  refine ((List.perm_ext_iff_of_nodup once named.nodup_dedup).mpr fun p => ?_).length_eq
  rw [same, List.mem_dedup]

/-- R180: the walk of the terms with the points counted before them; `named` are those points as they were named. -/
theorem contributionFailure_walk (terms : List Term) {counted named : List Point} (t : Nat)
    (ascends : counted.Pairwise (· < ·)) (same : ∀ p, p ∈ counted ↔ p ∈ named) (few : named.dedup.length ≤ 12) :
    ReportsLowest (contributionFailure? counted t terms) fun e => ∃ n, n < terms.length ∧ e = 64 + (t + n) ∧
      12 < (named ++ (terms.take (n + 1)).filterMap Term.contributed?).dedup.length := by
  induction terms generalizing counted named t with
  | nil =>
    refine reportsLowest_none fun e => ?_
    rintro ⟨n, low, -⟩
    exact nomatch low
  | cons term terms ih =>
    have goesOn {counted' named' : List Point} (ascends' : counted'.Pairwise (· < ·))
        (same' : ∀ p, p ∈ counted' ↔ p ∈ named') (few' : named'.dedup.length ≤ 12)
        (names : named' = named ++ term.contributed?.toList)
        (step : contributionFailure? counted t (term :: terms) = contributionFailure? counted' (t + 1) terms) :
        ReportsLowest (contributionFailure? counted t (term :: terms)) fun e =>
          ∃ n, n < (term :: terms).length ∧ e = 64 + (t + n) ∧
            12 < (named ++ ((term :: terms).take (n + 1)).filterMap Term.contributed?).dedup.length := by
      have through : ∀ n, named ++ ((term :: terms).take (n + 1)).filterMap Term.contributed? =
          named' ++ (terms.take n).filterMap Term.contributed? := fun n => by
        rw [names, List.take_succ_cons, List.filterMap_cons, List.append_assoc]
        cases term.contributed? <;> rfl
      rw [step]
      refine (ih (t + 1) ascends' same' few').congr fun e => ?_
      simp only [through]
      constructor
      · rintro ⟨n, low, rfl, many⟩
        exact ⟨n + 1, Nat.succ_lt_succ low, by omega, many⟩
      · rintro ⟨n, low, rfl, many⟩
        cases n with
        | zero => simp at many; omega
        | succ n => exact ⟨n, Nat.lt_of_succ_lt_succ low, by omega, many⟩
    cases target : term.target
    case contribute p =>
      have names : term.contributed? = some p := by rw [Term.contributed?, target]
      have ascends' := insertStation_ascending p ascends
      have same' : ∀ x, x ∈ insertStation p counted ↔ x ∈ named ++ [p] := fun x => by
        rw [mem_insertStation, same, List.mem_append, List.mem_singleton, or_comm]
      have length := length_eq_dedup ascends' same'
      by_cases many : 12 < (insertStation p counted).length
      · have found : contributionFailure? counted t (term :: terms) = some (64 + t) := by
          rw [contributionFailure?, target]
          exact if_pos many
        rw [found]
        refine reportsLowest_some ⟨0, Nat.succ_pos _, rfl, ?_⟩ fun d lt ⟨n, _, later, _⟩ => by omega
        simp [names]
        omega
      · refine goesOn ascends' same' (by omega) (by rw [names]; rfl) ?_
        rw [contributionFailure?, target]
        exact if_neg many
    all_goals
      have names : term.contributed? = none := by rw [Term.contributed?, target]
      refine goesOn ascends same few (by rw [names]; exact (List.append_nil _).symm) ?_
      rw [contributionFailure?, target]

/-- R180, code 7. -/
theorem contributionFailure_reports (b : Block) (c : StationSetup) :
    ReportsLowest (contributionFailure? c.faultPoint.toList 0 c.terms) (BlockFails b c 7) := by
  have first : c.faultPoint.toList.Pairwise (· < ·) ∧ c.faultPoint.toList.dedup.length ≤ 12 := by
    cases c.faultPoint <;> simp
  refine (contributionFailure_walk c.terms 0 first.1 (fun _ => .rfl) first.2).congr fun e => ?_
  simp only [BlockFails, contributionsOf_eq, Nat.zero_add]

end Sys2Proof.Machine

/-! SUPPORT. The checks of a configuration block along its gates and markers, and the first check that a block fails
(R122, R178, R180). -/

namespace Sys2Proof.Machine

/-! ### What a block in range holds (R179) -/

/-- R179, R180: what the checks along gates and markers ask of a configuration: its gate references name gates, its
timers' and counters' too, and the markers that it names or reads are those that there are. -/
structure LinksInRange (c : StationSetup) : Prop where
  parents  : ∀ n, (c.gate n).parent ≤ 8
  terms    : ∀ t ∈ c.terms, t.gate ≤ 8
  timers   : ∀ n, n < 16 → (c.timer n).gate ≤ 8
  counters : ∀ n, n < 8 → (c.counter n).gate ≤ 8
  enables  : ∀ n l k, (c.gate n).enable = some l → l.source = .marker k → k < 32
  literals : ∀ t ∈ c.terms, ∀ l ∈ t.literals, ∀ k, l.source = .marker k → k < 32
  targets  : ∀ t ∈ c.terms, ∀ k, t.target = .marker k → k < 32

/-- R179: a literal field in range names none but the markers that there are. -/
theorem literalAt_marker {b : Block} {place k : Nat} {required : Bool} {l : Literal}
    (fits : LiteralFits b place required) (at_ : literalAt b place = some l) (source : l.source = .marker k) :
    k < 32 := by
  obtain ⟨-, fits⟩ := fits
  obtain ⟨src, named, rfl⟩ := Option.map_eq_some_iff.mp at_
  obtain rfl : src = .marker k := source
  have kind : b.at place % 16 = 2 ∧ b.at (place + 1) = k := by
    revert named
    generalize b.at place % 16 = kind
    unfold sourceOf?
    split <;> simp
  omega

section
variable {b : Block}

theorem setupOf_gate (offsets : List Nat) (n : Nat) :
    (∃ i, i < 8 ∧ ((setupOf b offsets).gate n).enable = literalAt b (46 + 4 * i) ∧
      ((setupOf b offsets).gate n).parent = b.at (48 + 4 * i)) ∨ (setupOf b offsets).gate n = ⟨none, 0, .quiet⟩ := by
  by_cases low : n - 1 < 8
  · exact .inl ⟨n - 1, low, by simp [StationSetup.gate, setupOf, low], by simp [StationSetup.gate, setupOf, low]⟩
  · right
    simp [StationSetup.gate, setupOf, low]

/-- R179: a term of a block, by its place. -/
theorem setupOf_term {t : Term} (mem : t ∈ (setupOf b (termPlaces b)).terms) :
    ∃ n, n < b.at 163 ∧ t = termAt b (termPlace b n) := by
  simp only [setupOf, termPlaces, List.map_map, List.mem_map, List.mem_range] at mem
  obtain ⟨n, low, rfl⟩ := mem
  exact ⟨n, low, rfl⟩

/-- R179, R180: the links of a block that passes RANGE and CLASS. -/
theorem linksInRange (range : ∀ e, ¬ BlockFails b (setupOf b (termPlaces b)) 5 e)
    (allowed : ∀ e, ¬ BlockFails b (setupOf b (termPlaces b)) 6 e) : LinksInRange (setupOf b (termPlaces b)) := by
  have fits : ∀ e, e < 64 + b.at 163 → EntryFits b e := fun e low => by
    by_contra failed
    exact range e ⟨low, failed⟩
  have gate : ∀ n, n < 8 → LiteralFits b (46 + 4 * n) false ∧ b.at (48 + 4 * n) ≤ 8 := fun n low => by
    obtain ⟨-, -, -, gates, -⟩ := fits (29 + n) (by omega)
    obtain ⟨enable, parent, -⟩ := gates n low rfl
    exact ⟨enable, parent⟩
  have term : ∀ n, n < b.at 163 → b.at (termPlace b n + 2) / 16 ≤ 8 ∧
      ∀ i, i < b.at (termPlace b n + 2) % 8 → LiteralFits b (termPlace b n + 3 + 2 * i) true := fun n low => by
    obtain ⟨-, -, -, -, -, -, -, terms⟩ := fits (64 + n) (by omega)
    obtain ⟨-, gate, -, literals⟩ := terms n low rfl
    exact ⟨gate, literals⟩
  refine ⟨fun n => ?_, fun t mem => ?_, fun n low => ?_, fun n low => ?_, fun n l k enable source => ?_,
    fun t mem l literal k source => ?_, fun t mem k target => ?_⟩
  · rcases setupOf_gate (b := b) (termPlaces b) n with ⟨i, low, -, parent⟩ | blank
    · rw [parent]
      exact (gate i low).2
    · simp [blank]
  · obtain ⟨n, low, rfl⟩ := setupOf_term mem
    exact (term n low).1
  · obtain ⟨-, -, -, -, timers, -⟩ := fits (37 + n) (by omega)
    obtain ⟨-, -, gate, -⟩ := timers n low rfl
    simpa [StationSetup.timer, setupOf, low] using gate
  · obtain ⟨-, -, -, -, -, counters, -⟩ := fits (53 + n) (by omega)
    obtain ⟨-, gate, -⟩ := counters n low rfl
    simpa [StationSetup.counter, setupOf, low] using gate
  · rcases setupOf_gate (b := b) (termPlaces b) n with ⟨i, low, reads, -⟩ | blank
    · exact literalAt_marker (gate i low).1 (reads ▸ enable) source
    · rw [blank] at enable
      cases enable
  · obtain ⟨n, low, rfl⟩ := setupOf_term mem
    obtain ⟨i, inRange, reads⟩ := List.mem_filterMap.mp literal
    exact literalAt_marker ((term n low).2 i (List.mem_range.mp inRange)) reads source
  · obtain ⟨n, at_n⟩ := List.mem_iff_getElem?.mp mem
    by_contra high
    exact allowed (64 + n) ⟨n, t, rfl, at_n, by rw [target]; exact high⟩

end

/-! ### MARKER-CYCLE, GATE-CHAIN and GATE-REFERENCE (R122, R180) -/

/-- What the search from a set finds is reached from where the set was reached. -/
theorem reach_sound {reads : List (List Nat)} {m : Nat} (fuel : Nat) {found : List Nat}
    (reached : ∀ k ∈ found, Relation.TransGen (fun a b => b ∈ reads.getD a []) m k) :
    ∀ k ∈ reach reads fuel found, Relation.TransGen (fun a b => b ∈ reads.getD a []) m k := by
  induction fuel generalizing found with
  | zero => exact reached
  | succ fuel ih =>
    refine ih fun k mem => ?_
    obtain ⟨-, mem | ⟨n, mem, reads⟩⟩ := (mem_round ..).mp mem
    · exact reached k mem
    · exact .tail (reached n mem) reads

/-- What is reached through markers below 32 is found. -/
theorem reach_complete {reads : List (List Nat)} {m k : Nat}
    (path : Relation.TransGen (fun a b => b < 32 ∧ b ∈ reads.getD a []) m k) :
    k ∈ reach reads 32 (reads.getD m []) := by
  let start := (List.range 32).filter fun k =>
    (reads.getD m []).contains k || (reads.getD m []).any fun n => (reads.getD n []).contains k
  have bounded : ∀ n ∈ start, n < 32 := fun n mem => ((mem_round ..).mp mem).1
  have closed : ClosedUnder reads (reach reads 31 start) := by
    by_cases empty : start = []
    · rw [empty]
      exact closed_reach _ _ _ fun _ none => absurd none List.not_mem_nil
    · have some := List.length_pos_iff.mpr empty
      exact reach_closed reads 31 start (List.nodup_range.filter _) bounded (by omega)
  show k ∈ reach reads 31 start
  induction path with
  | single step => exact mem_reach reads 31 start _ step.1 ((mem_round ..).mpr ⟨step.1, .inl step.2⟩)
  | tail _ step found => exact closed _ found _ step.1 step.2

/-- R180, code 9 (log 13). -/
theorem gateChainFailure_reports (b : Block) (c : StationSetup) :
    ReportsLowest (gateChainFailure? c) (BlockFails b c 9) := by
  refine ((reportsLowest_range 8 _).shift 29).congr fun e => exists_congr fun n => ?_
  rw [Bool.not_eq_true', ← Bool.not_eq_true, chainOk_iff]
  tauto

section
variable {c : StationSetup} (links : LinksInRange c)
include links

theorem parentOf_le (n : Nat) : parentOf c n ≤ 8 := by
  unfold parentOf
  split
  · exact Nat.zero_le 8
  · exact links.parents n

/-- R122: the markers that a marker reads are those on which it depends. -/
theorem mem_markerReads (a k : Nat) : k ∈ markerReads c a ↔ dependsOn c a k := by
  have marker : ∀ src : Source, (match src with
      | .marker k => some k
      | _ => none) = some k ↔ src = .marker k := fun src => by
    cases src <;> simp
  simp only [markerReads, List.mem_flatMap, List.mem_filter, decide_eq_true_eq, List.mem_filterMap, List.mem_append,
    List.mem_map]
  constructor
  · rintro ⟨t, ⟨mem, target⟩, src, reads, named⟩
    obtain rfl := (marker src).mp named
    refine ⟨t, mem, target, reads.imp_right fun chain => ?_⟩
    exact (mem_chainSources (fun n _ => parentOf_le links n) (links.terms t mem) _).mp chain
  · rintro ⟨t, mem, target, reads⟩
    refine ⟨t, ⟨mem, target⟩, .marker k, reads.imp_right fun chain => ?_, rfl⟩
    exact (mem_chainSources (fun n _ => parentOf_le links n) (links.terms t mem) _).mpr chain

/-- R122, R180: a marker depends on another only where both are among the 32. -/
theorem dependsOn_low {a k : Nat} (depends : dependsOn c a k) : a < 32 ∧ k < 32 := by
  obtain ⟨t, mem, target, ⟨l, literal, source⟩ | ⟨n, l, -, enable, source⟩⟩ := depends
  · exact ⟨links.targets t mem a target, links.literals t mem l literal k source⟩
  · exact ⟨links.targets t mem a target, links.enables _ l k enable source⟩

/-- R180, code 8. -/
theorem markerCycle_reports (b : Block) : ReportsLowest (markerCycle? c) (BlockFails b c 8) := by
  let reads := (List.range 32).map (markerReads c)
  have row : ∀ a k, k ∈ reads.getD a [] ↔ dependsOn c a k := fun a k => by
    by_cases low : a < 32
    · rw [← mem_markerReads links]
      simp [reads, low]
    · refine iff_of_false (by simp [reads, low]) fun depends => low (dependsOn_low links depends).1
  have found : ∀ m, (reach reads 32 (reads.getD m [])).contains m = true ↔
      Relation.TransGen (dependsOn c) m m := fun m => by
    rw [List.contains_iff_mem]
    constructor
    · intro mem
      exact Relation.TransGen.mono (fun a k step => (row a k).mp step) _ _
        (reach_sound 32 (fun k first => .single first) m mem)
    · intro cycle
      exact reach_complete (Relation.TransGen.mono (fun a k step =>
        ⟨(dependsOn_low links step).2, (row a k).mpr step⟩) _ _ cycle)
  have search : markerCycle? c = (List.range 32).find? fun m => (reach reads 32 (reads.getD m [])).contains m := rfl
  rw [search]
  exact (reportsLowest_range 32 _).congr fun m => and_congr_right fun _ => found m

/-- R180, code 10. -/
theorem gateReferenceFailure_reports (b : Block) :
    ReportsLowest (gateReferenceFailure? c) (BlockFails b c 10) := by
  have reads : ∀ g source, g ≤ 8 → ((chainSources c g).contains source = true ↔ chainReads c g source) :=
    fun g source low => List.contains_iff_mem.trans (mem_chainSources (fun n _ => parentOf_le links n) low source)
  have timers : ReportsLowest (((List.range 16).find? fun n =>
      (chainSources c (c.timer n).gate).contains (.timer n)).map (37 + ·)) fun e =>
      ∃ n, n < 16 ∧ e = 37 + n ∧ chainReads c (c.timer n).gate (.timer n) := by
    refine ((reportsLowest_range 16 _).shift 37).congr fun e => exists_congr fun n => ?_
    constructor
    · rintro ⟨rfl, low, cyclic⟩
      exact ⟨low, rfl, (reads _ _ (links.timers n low)).mp cyclic⟩
    · rintro ⟨low, rfl, cyclic⟩
      exact ⟨rfl, low, (reads _ _ (links.timers n low)).mpr cyclic⟩
  have counters : ReportsLowest (((List.range 8).find? fun n =>
      (chainSources c (c.counter n).gate).contains (.counter n)).map (53 + ·)) fun e =>
      ∃ n, n < 8 ∧ e = 53 + n ∧ chainReads c (c.counter n).gate (.counter n) := by
    refine ((reportsLowest_range 8 _).shift 53).congr fun e => exists_congr fun n => ?_
    constructor
    · rintro ⟨rfl, low, cyclic⟩
      exact ⟨low, rfl, (reads _ _ (links.counters n low)).mp cyclic⟩
    · rintro ⟨low, rfl, cyclic⟩
      exact ⟨rfl, low, (reads _ _ (links.counters n low)).mpr cyclic⟩
  have both : gateReferenceFailure? c = (((List.range 16).find? fun n =>
      (chainSources c (c.timer n).gate).contains (.timer n)).map (37 + ·)).or
      (((List.range 8).find? fun n => (chainSources c (c.counter n).gate).contains (.counter n)).map (53 + ·)) := by
    unfold gateReferenceFailure?
    split
    next n found => rw [found]; rfl
    next none => rw [none]; rfl
  rw [both]
  refine timers.orElse counters ?_
  rintro e e' ⟨n, low, rfl, -⟩ ⟨n', -, rfl, -⟩
  omega

end

/-! ### The first check that fails (R178, R180) -/

theorem blockFails_code {b : Block} {c : StationSetup} {code entry : Nat} (failed : BlockFails b c code entry) :
    5 ≤ code ∧ code ≤ 10 := by
  unfold BlockFails at failed
  split at failed
  case h_7 => exact failed.elim
  all_goals exact ⟨by decide, by decide⟩

section
variable {b : Block}

/-- What a check of a block reports, where the checks before it find nothing. -/
def checkReport? (b : Block) (c : StationSetup) (code : Nat) : Option Nat :=
  match code with
  | 5 => rangeFailure? b (termPlaces b)
  | 6 => classFailure? c
  | 7 => contributionFailure? c.faultPoint.toList 0 c.terms
  | 8 => markerCycle? c
  | 9 => gateChainFailure? c
  | 10 => gateReferenceFailure? c
  | _ => none

/-- R180: each check reports the lowest entry that fails it, where the block passes the checks before it. -/
theorem checkReport_reports {code : Nat}
    (passes : ∀ k e, k < code → ¬ BlockFails b (setupOf b (termPlaces b)) k e) :
    ReportsLowest (checkReport? b (setupOf b (termPlaces b)) code) (BlockFails b (setupOf b (termPlaces b)) code) := by
  have links : 6 < code → LinksInRange (setupOf b (termPlaces b)) := fun late =>
    linksInRange (fun e => passes 5 e (by omega)) fun e => passes 6 e late
  unfold checkReport?
  split
  · exact rangeFailure_reports b _
  · exact classFailure_reports b _
  · exact contributionFailure_reports b _
  · exact markerCycle_reports (links (by decide)) b
  · exact gateChainFailure_reports b _
  · exact gateReferenceFailure_reports (links (by decide)) b
  · refine reportsLowest_none fun e failed => ?_
    obtain ⟨least, most⟩ := blockFails_code failed
    interval_cases code <;> contradiction

/-- R180: the first check that reports, in the order of the codes. -/
def firstFailure? (b : Block) (c : StationSetup) : Option LoadFailure :=
  [5, 6, 7, 8, 9, 10].findSome? fun code => (checkReport? b c code).map (⟨code, ·⟩)

/-- R180: the content checks of a block whose terms have been walked. -/
theorem loadBlock_checks (tag : b.at 0 = 1) (word : checkWordOk b = true)
    (places : termOffsets b = .ok (termPlaces b)) :
    loadBlock b = (firstFailure? b (setupOf b (termPlaces b))).elim (.ok (setupOf b (termPlaces b))) .error := by
  simp only [loadBlock, tag, word, places, contentFailure?, firstFailure?, List.findSome?_cons,
    List.findSome?_nil, checkReport?]
  cases rangeFailure? b (termPlaces b) with
  | some e => rfl
  | none =>
    cases classFailure? (setupOf b (termPlaces b)) with
    | some e => rfl
    | none =>
      cases contributionFailure? (setupOf b (termPlaces b)).faultPoint.toList 0 (setupOf b (termPlaces b)).terms with
      | some e => rfl
      | none =>
        cases markerCycle? (setupOf b (termPlaces b)) with
        | some e => rfl
        | none =>
          cases gateChainFailure? (setupOf b (termPlaces b)) with
          | some e => rfl
          | none => cases gateReferenceFailure? (setupOf b (termPlaces b)) <;> rfl

/-- R180: a block reports its first failing check and the lowest entry that fails it. -/
theorem firstFailure_some {code entry : Nat} (failed : BlockFails b (setupOf b (termPlaces b)) code entry)
    (lowest : ∀ e, e < entry → ¬ BlockFails b (setupOf b (termPlaces b)) code e)
    (passes : ∀ k e, k < code → ¬ BlockFails b (setupOf b (termPlaces b)) k e) :
    firstFailure? b (setupOf b (termPlaces b)) = some ⟨code, entry⟩ := by
  have found := (checkReport_reports passes entry).mpr ⟨failed, lowest⟩
  have before : ∀ k, k < code → checkReport? b (setupOf b (termPlaces b)) k = none := fun k lt =>
    (checkReport_reports fun j e lower => passes j e (lower.trans lt)).none_iff.mpr fun e => passes k e lt
  obtain ⟨least, most⟩ := blockFails_code failed
  interval_cases code <;> simp [firstFailure?, found, before]

theorem firstFailure_none (passes : ∀ k e, ¬ BlockFails b (setupOf b (termPlaces b)) k e) :
    firstFailure? b (setupOf b (termPlaces b)) = none := by
  have quiet : ∀ k, checkReport? b (setupOf b (termPlaces b)) k = none := fun k =>
    (checkReport_reports fun j e _ => passes j e).none_iff.mpr (passes k)
  simp [firstFailure?, quiet]

end

/-- Settles O7: the tag, the check word, the walk to the first term that does not fit or past its end, then the content
checks. -/
theorem failingBlocksReportTheirFirstCheck : Obligations.FailingBlocksReportTheirFirstCheck := by
  intro b count stop sum checkWord c
  refine ⟨loadBlock_tag, fun tag wrong => loadBlock_checkWord tag fun ok => wrong ((checkWordOk_iff b).mp ok),
    fun tag agrees => ?_⟩
  have word : checkWordOk b = true := (checkWordOk_iff b).mpr agrees
  refine ⟨fun many => loadBlock_walk_fails tag word (if_pos many),
    fun t few low fits stops => loadBlock_walk_fails tag word ?_,
    fun few fits ends => loadBlock_walk_fails tag word ?_, fun few fits ends => ?_⟩
  · rw [termOffsets_walk few]
    exact walkTerms_first stops _ 0 (Nat.zero_le t) (by omega) fun u _ lt => fits u lt
  · rw [termOffsets_walk few, walkTerms_all _ 0 fun u _ lt => fits u (by omega), Nat.zero_add]
    exact if_neg ends
  · have checks := loadBlock_checks tag word (termOffsets_ok few fits ends)
    refine ⟨fun code entry failed lowest passes => ?_, fun passes => ?_⟩
    · exact checks.trans (by rw [firstFailure_some failed lowest passes]; rfl)
    · exact checks.trans (by rw [firstFailure_none passes]; rfl)

end Sys2Proof.Machine

/-! SUPPORT. The timers' phases by the tables of the three kinds, and the order in which a timer takes its inputs (R134,
R137 to R139). -/

namespace Sys2Proof.Machine

section
variable {t : TimerState}

/-! ### DELAY-ON (R137) -/

/-- R137: the run condition, as the model computes it. -/
theorem timerRun_iff : (t.coil && !t.reset && t.isOpen) = true ↔ t.coil = true ∧ t.reset = false ∧ t.isOpen = true := by
  simp [and_assoc]

theorem settleDelayOn_stops (stopped : ¬ (t.coil = true ∧ t.reset = false ∧ t.isOpen = true)) :
    t.settleDelayOn = { t with phase := .idle, value := 0, done := false, clock := none } :=
  if_neg (mt timerRun_iff.mp stopped)

theorem settleDelayOn_starts (runs : t.coil = true ∧ t.reset = false ∧ t.isOpen = true) (idle : t.phase = .idle) :
    t.settleDelayOn = { t with phase := .timing, value := 0, done := false, clock := some 0 } :=
  (if_pos (timerRun_iff.mpr runs)).trans (if_pos idle)

theorem settleDelayOn_goes_on (runs : t.coil = true ∧ t.reset = false ∧ t.isOpen = true) (under : t.phase ≠ .idle) :
    t.settleDelayOn = t :=
  (if_pos (timerRun_iff.mpr runs)).trans (if_neg under)

/-! ### DELAY-ON-HELD (R138) -/

/-- R138: the reset prevails over the coil and the gate. -/
theorem settleHeld_reset (reset : t.reset = true) :
    t.settleHeld = { t with phase := .idle, value := 0, done := false, clock := none } :=
  if_pos reset

/-- R138: the column of a coil that is ON at an OPEN gate. -/
theorem settleHeld_runs (runs : t.coil = true ∧ t.reset = false ∧ t.isOpen = true) :
    t.settleHeld = if t.phase = .idle ∨ t.phase = .paused then { t with phase := .timing, clock := some 0 } else t := by
  obtain ⟨coil, reset, isOpen⟩ := runs
  cases phase : t.phase <;> simp [TimerState.settleHeld, coil, reset, isOpen, phase]

/-- R138: the column of a coil that is OFF or a gate that is not OPEN. -/
theorem settleHeld_holds (reset : t.reset = false) (stopped : t.coil = false ∨ t.isOpen = false) :
    t.settleHeld = if t.phase = .timing then { t with phase := .paused, clock := none } else t := by
  have noRun : (t.coil && t.isOpen) = false := Bool.and_eq_false_iff.mpr stopped
  cases phase : t.phase <;> simp [TimerState.settleHeld, reset, noRun, phase]

/-! ### DELAY-OFF (R139) -/

/-- R139: a timer that is not free. -/
theorem settleDelayOff_forced (forced : t.reset = true ∨ t.isOpen = false) :
    t.settleDelayOff = { t with phase := .idle, value := 0, done := false, clock := none } :=
  if_pos (by simpa using forced)

/-- R139: the column of a free timer's coil that is ON. -/
theorem settleDelayOff_coil_on (runs : t.coil = true ∧ t.reset = false ∧ t.isOpen = true) :
    t.settleDelayOff =
      if t.phase = .energised then t else { t with phase := .energised, value := 0, done := true, clock := none } := by
  obtain ⟨coil, reset, isOpen⟩ := runs
  simp [TimerState.settleDelayOff, coil, reset, isOpen]

/-- R139: the column of a free timer's coil that is OFF. -/
theorem settleDelayOff_coil_off (reset : t.reset = false) (isOpen : t.isOpen = true) (coil : t.coil = false) :
    t.settleDelayOff =
      if t.phase = .energised then { t with phase := .timing, value := 0, clock := some 0 } else t := by
  cases phase : t.phase <;> simp [TimerState.settleDelayOff, coil, reset, isOpen, phase]

end

/-! ### The inputs of one event (R134) -/

/-- A timer after one of its inputs, which `put` writes: it settles where the event hands the input. -/
def TimerState.takeInput (kind : TimerKind) (v : Option Bool) (put : TimerState → Bool → TimerState) (t : TimerState) :
    TimerState :=
  match v with
  | some b => TimerState.settle kind (put t b)
  | none => t

/-- R134: of one event the standing is taken first, then the coil, then the reset. -/
theorem takeInputs_eq (kind : TimerKind) (h : TimerInputs) (t : TimerState) :
    TimerState.takeInputs kind h t =
      .takeInput kind h.reset (fun u b => { u with reset := b })
        (.takeInput kind h.coil (fun u b => { u with coil := b })
          (.takeInput kind h.standing (fun u b => { u with isOpen := b }) t)) := rfl

/-- Settles O46: the tables of DELAY-ON, DELAY-ON-HELD and DELAY-OFF, column by column, then the order of the inputs. -/
theorem timerKindsFollowTheirTables : Obligations.TimerKindsFollowTheirTables := by
  intro t idle runs on held off
  refine ⟨settleDelayOn_stops, settleDelayOn_starts, fun run phase => ?_, settleHeld_reset, fun run phase => ?_,
    fun reset stop phase => ?_, fun reset stop phase => ?_, fun run phase => ?_, settleDelayOff_forced,
    fun run phase => ?_, fun run phase => ?_, fun reset gate coil phase => ?_, fun reset gate coil phase => ?_,
    fun kind h => takeInputs_eq kind h t⟩
  · exact settleDelayOn_goes_on run fun idle => by simp [idle] at phase
  · exact (settleHeld_runs run).trans (if_pos phase)
  · exact (settleHeld_holds reset stop).trans (if_pos phase)
  · exact (settleHeld_holds reset stop).trans (if_neg fun other => by simp [other] at phase)
  · exact (settleHeld_runs run).trans (if_neg (by rcases phase with phase | phase <;> simp [phase]))
  · exact (settleDelayOff_coil_on run).trans (if_neg fun other => by simp [other] at phase)
  · exact (settleDelayOff_coil_on run).trans (if_pos phase)
  · exact (settleDelayOff_coil_off reset gate coil).trans (if_pos phase)
  · exact (settleDelayOff_coil_off reset gate coil).trans (if_neg fun other => by simp [other] at phase)

end Sys2Proof.Machine

/-! SUPPORT. The input lines with their filter runs, and what the field line unit decides of one output (R146, R147,
R149, R150, R152). -/

namespace Sys2Proof.Machine

/-! ### Input lines (R146, R147) -/

section
variable {s : State} {n : Nat} {i j : FieldInput}

/-- The station once input `n` stands as `i`. -/
def State.withInputAt (s : State) (n : Nat) (i : FieldInput) : State :=
  { s with field := { s.field with inputs := s.field.inputs.set n i } }

theorem withInputAt_same (at_n : s.field.inputs[n]? = some i) : s.withInputAt n i = s := by
  obtain ⟨inside, rfl⟩ := List.getElem?_eq_some_iff.mp at_n
  simp [State.withInputAt, List.set_getElem_self]

theorem putInput_unchanged (same : j.filtered = i.filtered) : s.putInput n i j = s.withInputAt n j := if_pos same

/-- R146: a filtered value that has changed is handed on. -/
theorem putInput_changed (changed : j.filtered ≠ i.filtered) :
    s.putInput n i j = (s.withInputAt n j).post [.source (.input n) j.filtered] := if_neg changed

/-- R147: before the handover an input line is only recorded. -/
theorem inputLine_unwatched (at_n : s.field.inputs[n]? = some i) (unwatched : s.lifecycle.watchesLines = false)
    (level : Bool) : s.inputLine n level = s.withInputAt n { i with line := level } := by
  simp only [State.inputLine, at_n, unwatched, Bool.false_eq_true, if_false]
  exact putInput_unchanged rfl

theorem inputLine_watched (at_n : s.field.inputs[n]? = some i) (watched : s.lifecycle.watchesLines = true)
    (level : Bool) : s.inputLine n level = s.putInput n i (i.lineChange (s.setup.filter n) level) := by
  simp only [State.inputLine, at_n, watched, if_true]

/-- R146: a change to the filtered value ends the run. -/
theorem lineChange_back (i : FieldInput) (filter : Nat) :
    i.lineChange filter i.filtered = { i with line := i.filtered, run := none } := if_pos rfl

/-- R146: a change to the other level starts the run. -/
theorem lineChange_runs {filter : Nat} {level : Bool} (other : level ≠ i.filtered) (filters : filter ≠ 0) :
    i.lineChange filter level = { i with line := level, run := some 0 } := by
  simp [FieldInput.lineChange, other, filters]

/-- R146: without a filter time the other level is taken at once. -/
theorem lineChange_unfiltered {level : Bool} (other : level ≠ i.filtered) :
    i.lineChange 0 level = { i with line := level, filtered := level, run := none } := by
  simp [FieldInput.lineChange, other]

theorem filterExpires_eq (at_n : s.field.inputs[n]? = some i) :
    s.filterExpires n = s.putInput n i (i.runExpiry (s.setup.filter n)) := by
  simp only [State.filterExpires, at_n]

/-- R146: a run that has reached the filter time takes the opposite value. -/
theorem runExpiry_due {filter : Nat} (due : HasReached i.run filter) :
    i.runExpiry filter = { i with filtered := !i.filtered, run := none } := if_pos (reached_of_hasReached due)

theorem runExpiry_early {filter : Nat} (early : ¬ HasReached i.run filter) : i.runExpiry filter = i := by
  simp [FieldInput.runExpiry, reached_of_not_hasReached early]

end

/-- Settles O48: a line change by whether the line is watched, by its level and by the filter time, then the expiry of
the run. -/
theorem inputLinesAreFiltered : Obligations.InputLinesAreFiltered := by
  intro s n i v at_n
  have acts : exec (.inputLineChange n v) s = (s.inputLine n v).answer := rfl
  have expires : exec (.filterRunExpiry n) s = (s.filterExpires n).answer := rfl
  refine ⟨fun unwatched => ?_, fun watched back => ?_, fun watched other filters => ?_,
    fun watched other unfiltered => ?_, fun due => ?_, fun early => ?_⟩
  · rw [acts, inputLine_unwatched at_n unwatched]
    exact answer_settles _
  · subst back
    rw [acts, inputLine_watched at_n watched, lineChange_back, putInput_unchanged (by rfl)]
    exact answer_settles _
  · rw [acts, inputLine_watched at_n watched, lineChange_runs other filters, putInput_unchanged (by rfl)]
    exact answer_settles _
  · rw [acts, inputLine_watched at_n watched, unfiltered, lineChange_unfiltered other, putInput_changed other]
    exact answer_settlesBy _
  · have changed : (!i.filtered) ≠ i.filtered := by simp
    rw [expires, filterExpires_eq at_n, runExpiry_due due, putInput_changed changed]
    exact answer_settlesBy _
  · rw [expires, filterExpires_eq at_n, runExpiry_early early, putInput_unchanged (by rfl), withInputAt_same at_n]
    exact answer_settles s

/-! ### The driven level of an output (R149, R150) -/

section
variable {life : Lifecycle} {setup : OutputSetup} {o : FieldOutput}

theorem drivenLevel_latched (latched : o.phase = .latched) : drivenLevel life setup o = false := if_pos latched

theorem drivenLevel_released (unlatched : o.phase ≠ .latched) (off : life ≠ .active) (release : setup.hold = false) :
    drivenLevel life setup o = false := by
  simp [drivenLevel, unlatched, off, release]

theorem drivenLevel_held (unlatched : o.phase ≠ .latched) (off : life ≠ .active) (hold : setup.hold = true) :
    drivenLevel life setup o = o.hold := by
  simp [drivenLevel, unlatched, off, hold]

theorem drivenLevel_active (unlatched : o.phase ≠ .latched) : drivenLevel .active setup o = o.commanded := by
  simp [drivenLevel, unlatched]

/-! ### The driven level at the readback check (R152) -/

/-- R152: the phases in which the readback is compared, or will be. -/
def CheckPhase.checks : CheckPhase → Prop
  | .settling | .watching | .differing => True
  | .off | .latched => False

theorem drive_same (o : FieldOutput) : o.drive o.driven = o := if_pos rfl

/-- R152: a change of the driven level brings the check back into SETTLING. -/
theorem drive_restarts {level : Bool} (changed : level ≠ o.driven) (checks : o.phase.checks) :
    o.drive level = { o with driven := level, phase := .settling, timer := some 0 } := by
  cases phase : o.phase <;> simp_all [FieldOutput.drive, CheckPhase.checks]

theorem drive_unchecked (level : Bool) (unchecked : ¬ o.phase.checks) : o.drive level = { o with driven := level } := by
  by_cases same : level = o.driven
  · subst same
    exact drive_same o
  · cases phase : o.phase <;> simp_all [FieldOutput.drive, CheckPhase.checks]

/-- R152: what a driven level makes of an output, whether it has changed or not. -/
theorem drive_cases (level : Bool) (o : FieldOutput) :
    (o.drive level = { o with driven := level } ∧ (level = o.driven ∨ ¬ o.phase.checks)) ∨
    (o.drive level = { o with driven := level, phase := .settling, timer := some 0 } ∧
      level ≠ o.driven ∧ o.phase.checks) := by
  by_cases same : level = o.driven
  · subst same
    exact .inl ⟨drive_same o, .inl rfl⟩
  · by_cases checks : o.phase.checks
    · exact .inr ⟨drive_restarts same checks, same, checks⟩
    · exact .inl ⟨drive_unchecked level checks, .inr checks⟩

theorem drive_driven (level : Bool) (o : FieldOutput) : (o.drive level).driven = level := by
  rcases drive_cases level o with ⟨eq, -⟩ | ⟨eq, -⟩ <;> rw [eq]

/-- R149, R150: an output decided anew, by its driven level. -/
theorem settle_eq (life : Lifecycle) (setup : OutputSetup) (o : FieldOutput) : FieldOutput.settle life setup o =
    { o.drive (drivenLevel life setup o) with
      hold := if life = .active then drivenLevel life setup o else o.hold } := by
  have level := drive_driven (drivenLevel life setup o) o
  have hold : (o.drive (drivenLevel life setup o)).hold = o.hold := by
    rcases drive_cases (drivenLevel life setup o) o with ⟨eq, -⟩ | ⟨eq, -⟩ <;> rw [eq]
  by_cases active : life = .active <;> simp only [FieldOutput.settle, active, if_true, if_false] at *
  · rw [level]
  · rw [← hold]

/-- R149: a latched output is driven OFF, and stays latched. -/
theorem settle_latched (latched : o.phase = .latched) : FieldOutput.settle life setup o =
    { o with driven := false, hold := if life = .active then false else o.hold } := by
  rw [settle_eq, drivenLevel_latched latched, drive_unchecked _ (by simp [latched, CheckPhase.checks])]

/-- R149, R150: an output decided anew takes the level of the table, and while ACTIVE holds it. -/
theorem settle_follows (life : Lifecycle) (setup : OutputSetup) (o : FieldOutput) :
    (FieldOutput.settle life setup o).driven = drivenLevel life setup o ∧
    (FieldOutput.settle life setup o).hold = (if life = .active then drivenLevel life setup o else o.hold) ∧
    (FieldOutput.settle life setup o).commanded = o.commanded := by
  rw [settle_eq]
  refine ⟨drive_driven _ o, rfl, ?_⟩
  rcases drive_cases (drivenLevel life setup o) o with ⟨eq, -⟩ | ⟨eq, -⟩ <;> rw [eq]

/-- R152: where the driven level stays, so does the check. -/
theorem settle_stays (same : drivenLevel life setup o = o.driven) :
    (FieldOutput.settle life setup o).phase = o.phase ∧ (FieldOutput.settle life setup o).timer = o.timer := by
  rw [settle_eq, same, drive_same]
  exact ⟨rfl, rfl⟩

/-- R152: where the driven level changes, a check that runs begins again. -/
theorem settle_restarts (changed : drivenLevel life setup o ≠ o.driven) (checks : o.phase.checks) :
    (FieldOutput.settle life setup o).phase = .settling ∧ (FieldOutput.settle life setup o).timer = some 0 := by
  rw [settle_eq, drive_restarts changed checks]
  exact ⟨rfl, rfl⟩

/-- R153: no driven level latches an output. -/
theorem settle_unlatched (unlatched : o.phase ≠ .latched) :
    (FieldOutput.settle life setup o).phase ≠ .latched := by
  rw [settle_eq]
  rcases drive_cases (drivenLevel life setup o) o with ⟨eq, -⟩ | ⟨eq, -⟩ <;> rw [eq]
  · exact unlatched
  · simp

end

/-! ### The readback check (R152) -/

section
variable {o : FieldOutput} {setup : OutputSetup} {level : Bool}

theorem readbackChange_differs (watching : o.phase = .watching) (other : level ≠ o.driven) :
    o.readbackChange level = { o with readback := level, phase := .differing, timer := some 0 } := by
  simp [FieldOutput.readbackChange, watching, other]

theorem readbackChange_agrees (differing : o.phase = .differing) (same : level = o.driven) :
    o.readbackChange level = { o with readback := level, phase := .watching, timer := none } := by
  simp [FieldOutput.readbackChange, differing, same]

/-- R152: the readback changes that the check does not act on. -/
theorem readbackChange_recorded (recorded : o.phase = .off ∨ o.phase = .settling ∨ o.phase = .latched ∨
      o.phase = .watching ∧ level = o.driven ∨ o.phase = .differing ∧ level ≠ o.driven) :
    o.readbackChange level = { o with readback := level } := by
  rcases recorded with off | settling | latched | ⟨watching, same⟩ | ⟨differing, other⟩
  · simp [FieldOutput.readbackChange, off]
  · simp [FieldOutput.readbackChange, settling]
  · simp [FieldOutput.readbackChange, latched]
  · simp [FieldOutput.readbackChange, watching, same]
  · simp [FieldOutput.readbackChange, differing, other]

theorem settleExpiry_agrees (settling : o.phase = .settling) (due : HasReached o.timer setup.settle)
    (same : o.readback = o.driven) : o.settleExpiry setup = { o with phase := .watching, timer := none } := by
  simp [FieldOutput.settleExpiry, settling, reached_of_hasReached due, same]

theorem settleExpiry_differs (settling : o.phase = .settling) (due : HasReached o.timer setup.settle)
    (other : o.readback ≠ o.driven) : o.settleExpiry setup = { o with phase := .differing, timer := some 0 } := by
  simp [FieldOutput.settleExpiry, settling, reached_of_hasReached due, other]

theorem settleExpiry_stale (stale : o.phase ≠ .settling ∨ ¬ HasReached o.timer setup.settle) :
    o.settleExpiry setup = o := by
  refine if_neg fun due => ?_
  rw [Bool.and_eq_true, decide_eq_true_eq, reached_iff] at due
  exact stale.elim (· due.1) (· due.2)

theorem mismatchExpires_iff :
    o.mismatchExpires setup = true ↔ o.phase = .differing ∧ HasReached o.timer setup.settle := by
  rw [FieldOutput.mismatchExpires, Bool.and_eq_true, decide_eq_true_eq, reached_iff]
  rfl

end

end Sys2Proof.Machine

/-! SUPPORT. The outputs of a station: what the hand-offs of a command leave of them and of the latched-output
indication, and the output whose fault latches (R148, R149, R152, R153, R158). -/

namespace Sys2Proof.Machine

/-! ### One output of a station -/

section
variable {s : State} {n : Nat} {o : FieldOutput}

/-- The station once output `n` stands as `u`. -/
def State.withOutputAt (s : State) (n : Nat) (u : FieldOutput) : State :=
  { s with field := { s.field with outputs := s.field.outputs.set n u } }

theorem withOutputAt_same (at_n : s.field.outputs[n]? = some o) : s.withOutputAt n o = s := by
  obtain ⟨inside, rfl⟩ := List.getElem?_eq_some_iff.mp at_n
  simp [State.withOutputAt, List.set_getElem_self]

theorem withOutputAt_getElem? (at_n : s.field.outputs[n]? = some o) (u : FieldOutput) :
    (s.withOutputAt n u).field.outputs[n]? = some u := by
  obtain ⟨inside, -⟩ := List.getElem?_eq_some_iff.mp at_n
  simp [State.withOutputAt, inside]

theorem updateOutput_eq (at_n : s.field.outputs[n]? = some o) (f : FieldOutput → FieldOutput) :
    s.updateOutput n f = s.withOutputAt n (f o) := by
  obtain ⟨inside, -⟩ := List.getElem?_eq_some_iff.mp at_n
  rw [State.updateOutput, modify_eq_set_getD inside f o, List.getD_eq_getElem?_getD, at_n]
  rfl

end

/-! ### Outputs under hand-offs (R148, R149) -/

/-- What holds of output `n` in lifecycle `life` still holds of it. -/
def KeepsOutput (life : Lifecycle) (n : Nat) (P : Option FieldOutput → Prop) (s t : State) : Prop :=
  t.lifecycle = s.lifecycle ∧ (s.lifecycle = life → P s.field.outputs[n]? → P t.field.outputs[n]?)

/-- What is kept where an output is decided anew, with whatever commanded level. -/
def KeptBySettle (life : Lifecycle) (P : Option FieldOutput → Prop) : Prop :=
  ∀ (setup : OutputSetup) (level : FieldOutput → Bool) (x : Option FieldOutput), P x →
    P (x.map fun o => FieldOutput.settle life setup { o with commanded := level o })

section
variable {life : Lifecycle} {n : Nat} {P : Option FieldOutput → Prop}

theorem KeepsOutput.of_same {s t : State} (lifecycle : t.lifecycle = s.lifecycle) (field : t.field = s.field) :
    KeepsOutput life n P s t := ⟨lifecycle, fun _ h => field ▸ h⟩

theorem commandOutput_keepsOutput (keeps : KeptBySettle life P) (s : State) (m : Nat) (v : Bool) :
    KeepsOutput life n P s (s.commandOutput m v) := by
  refine ⟨rfl, ?_⟩
  rintro rfl h
  rw [State.commandOutput, State.updateOutput]
  by_cases same : m = n
  · subst same
    simpa using keeps (s.setup.output m) (fun _ => v) _ h
  · simpa [same] using h

theorem fieldLifecycle_keepsOutput (keeps : KeptBySettle life P) (s : State) :
    KeepsOutput life n P s s.fieldLifecycle := by
  refine ⟨rfl, ?_⟩
  rintro rfl h
  simpa [State.fieldLifecycle] using keeps (s.setup.output n) (·.commanded) _ h

/-- R148, R149: commanded levels and the lifecycle are all that hand-offs bring to an output. -/
theorem keepsOutput_carried (keeps : KeptBySettle life P) : Carried (KeepsOutput life n P) where
  refl _ := .of_same rfl rfl
  trans h k := ⟨k.1.trans h.1, fun active p => k.2 (h.1.trans active) (h.2 active p)⟩
  free _ _ := .of_same rfl rfl
  agenda _ _ := .of_same rfl rfl
  echoes _ _ := .of_same rfl rfl
  eval _ _ := .of_same rfl rfl
  timers _ _ := .of_same rfl rfl
  report s kind subject life := .of_same (takeReport_untouched s kind subject life).lifecycle
    (takeReport_field s kind subject life)
  trigger _ := .of_same rfl rfl
  group _ _ := .of_same rfl rfl
  request s r := .of_same (by rw [takeEdgeRequest_requestsOnly s r]) (by rw [takeEdgeRequest_requestsOnly s r])
  output := commandOutput_keepsOutput keeps
  field := fieldLifecycle_keepsOutput keeps
  desired _ _ _ := .of_same rfl rfl

/-- What is kept where an output is decided anew holds of it at the end of a command. -/
theorem finish_output {s : State} (keeps : KeptBySettle s.lifecycle P) (h : P s.field.outputs[n]?) :
    P s.finish.field.outputs[n]? :=
  ((keepsOutput_carried keeps).finish s).2 rfl h

/-- The same of an output that stands. -/
theorem finish_output_some {s : State} {Q : FieldOutput → Prop} {o : FieldOutput}
    (keeps : ∀ setup level (o : FieldOutput), Q o →
      Q (FieldOutput.settle s.lifecycle setup { o with commanded := level }))
    (at_n : s.field.outputs[n]? = some o) (h : Q o) : ∃ u, s.finish.field.outputs[n]? = some u ∧ Q u := by
  refine finish_output (P := fun x => ∃ u, x = some u ∧ Q u) ?_ ⟨o, at_n, h⟩
  rintro setup level x ⟨u, rfl, q⟩
  exact ⟨_, rfl, keeps setup _ u q⟩

end

/-! ### The latched-output indication (R158) -/

/-- The latched-output indication stays as it is. -/
def KeepsIndication (s t : State) : Prop := t.fault.latched = s.fault.latched

theorem takeReport_keepsIndication (s : State) (kind : FaultKind) (subject : Option Subject) (life : Lifecycle) :
    KeepsIndication s (s.takeReport kind subject life) := by
  rw [KeepsIndication, takeReport_fault]
  rfl

/-- R158: the field line unit alone hands it on, and not as a hand-off that waits. -/
theorem keepsIndication_carried : Carried KeepsIndication where
  refl _ := rfl
  trans h k := k.trans h
  free _ _ := rfl
  agenda _ _ := rfl
  echoes _ _ := rfl
  eval _ _ := rfl
  timers _ _ := rfl
  report := takeReport_keepsIndication
  trigger _ := rfl
  group _ _ := rfl
  request s r := by
    unfold State.takeEdgeRequest
    split
    · rfl
    · rfl
    · split
      · rfl
      · exact takeReport_keepsIndication s _ _ _
    all_goals rfl
  output _ _ _ := rfl
  field _ := rfl
  desired _ _ _ := rfl

section
variable (s : State) (on : Bool)

theorem faultLineMoved_field (before : Bool) : (s.faultLineMoved before).field = s.field := by
  unfold State.faultLineMoved
  split <;> rfl

theorem latchedIndication_fault : (s.latchedIndication on).fault = { s.fault with latched := on } :=
  faultLineMoved_fault _ _

theorem latchedIndication_field : (s.latchedIndication on).field = s.field := faultLineMoved_field _ _

theorem latchedIndication_untouched : Untouched s (s.latchedIndication on) :=
  Untouched.trans (b := { s with fault := { s.fault with latched := on } }) (by constructor <;> rfl)
    (faultLineMoved_untouched _ _)

end

/-! ### The output whose fault latches (R153) -/

section
variable {s : State} {n : Nat} {o : FieldOutput}

/-- R153: output `o` once its fault has latched. -/
def FieldOutput.latched (life : Lifecycle) (o : FieldOutput) : FieldOutput :=
  { o with phase := .latched, timer := none, driven := false, hold := if life = .active then false else o.hold }

/-- R153: the station once the fault of output `n` has latched, and before OUTPUT-READBACK is reported. -/
def State.outputLatched (s : State) (n : Nat) (o : FieldOutput) : State := s.withOutputAt n (o.latched s.lifecycle)

/-- R153: the latch, the report and, from an empty set, the indication. -/
theorem latchOutput_eq (at_n : s.field.outputs[n]? = some o) : s.latchOutput n =
    if s.field.latchedOutputs.isEmpty
    then ((s.outputLatched n o).report .outputReadback (some (.output n))).latchedIndication true
    else (s.outputLatched n o).report .outputReadback (some (.output n)) := by
  have latches : FieldOutput.settle s.lifecycle (s.setup.output n) { o with phase := .latched, timer := none } =
      o.latched s.lifecycle := settle_latched rfl
  rw [State.latchOutput, updateOutput_eq at_n, latches]
  rfl

theorem latchOutput_untouched (at_n : s.field.outputs[n]? = some o) : Untouched s (s.latchOutput n) := by
  have latched : Untouched s (s.outputLatched n o) := by constructor <;> rfl
  have reported := latched.trans (report_untouched (s.outputLatched n o) .outputReadback (some (.output n)))
  rw [latchOutput_eq at_n]
  split
  · exact reported.trans (latchedIndication_untouched _ _)
  · exact reported

theorem latchOutput_output (at_n : s.field.outputs[n]? = some o) :
    (s.latchOutput n).field.outputs[n]? = some (o.latched s.lifecycle) := by
  have reported : ((s.outputLatched n o).report .outputReadback (some (.output n))).field =
      (s.outputLatched n o).field := takeReport_field _ _ _ _
  have field : (s.latchOutput n).field = (s.outputLatched n o).field := by
    rw [latchOutput_eq at_n]
    split
    · rw [latchedIndication_field, reported]
    · exact reported
  rw [field]
  exact withOutputAt_getElem? at_n _

/-- R153, R157, R158: the fault unit, which has counted OUTPUT-READBACK. -/
theorem latchOutput_fault (at_n : s.field.outputs[n]? = some o) :
    (s.latchOutput n).fault =
      { s.fault.takeReport .outputReadback (some (.output n)) s.timeBase s.lifecycle with
        latched := s.field.latchedOutputs.isEmpty || s.fault.latched } := by
  have reported : ((s.outputLatched n o).report .outputReadback (some (.output n))).fault =
      s.fault.takeReport .outputReadback (some (.output n)) s.timeBase s.lifecycle := report_fault _ _ _
  rw [latchOutput_eq at_n]
  split
  · rename_i empty
    rw [latchedIndication_fault, reported, empty]
    rfl
  · rename_i some
    rw [reported, Bool.eq_false_iff.mpr some]
    rfl

/-- R153: a latched output that is OFF stays so, whatever is commanded. -/
theorem finish_latched {u : FieldOutput} (at_n : s.field.outputs[n]? = some u) (latched : u.phase = .latched)
    (off : u.driven = false) (timer : u.timer = none) : ∃ v, s.finish.field.outputs[n]? = some v ∧
      v.phase = .latched ∧ v.driven = false ∧ v.timer = none ∧ v.readback = u.readback := by
  refine finish_output_some (Q := fun v => v.phase = .latched ∧ v.driven = false ∧ v.timer = none ∧
    v.readback = u.readback) ?_ at_n ⟨latched, off, timer, rfl⟩
  rintro setup level v ⟨latched, -, timer, readback⟩
  rw [settle_latched (o := { v with commanded := level }) latched]
  exact ⟨latched, rfl, timer, readback⟩

end

/-! ### The commands of an output (R152, R153) -/

section
variable {s : State} {n : Fin 12} {o : FieldOutput}

theorem exec_readbackLineChange (at_n : s.field.outputs[n.val]? = some o) (v : Bool) :
    exec (.readbackLineChange n v) s =
      (s.withOutputAt n (if v = o.readback then o else o.readbackChange v)).answer :=
  congrArg State.answer (updateOutput_eq at_n _)

theorem exec_settleTimerExpiry (at_n : s.field.outputs[n.val]? = some o) :
    exec (.settleTimerExpiry n) s = (s.withOutputAt n (o.settleExpiry (s.setup.output n))).answer :=
  congrArg State.answer (updateOutput_eq at_n _)

theorem exec_mismatchTimerExpiry (at_n : s.field.outputs[n.val]? = some o) :
    exec (.mismatchTimerExpiry n) s =
      (if o.mismatchExpires (s.setup.output n) then s.latchOutput n else s).answer := by
  show execMismatchTimerExpiry n s = _
  rw [execMismatchTimerExpiry, at_n]

/-- R152, R153, R157, R158: what the mismatch timer leaves once it has run out. -/
theorem mismatch_latches (at_n : s.field.outputs[n.val]? = some o) (differing : o.phase = .differing)
    (due : HasReached o.timer (s.setup.output n).settle) :
    ∃ t u, exec (.mismatchTimerExpiry n) s = .next t ∧ t.field.outputs[n.val]? = some u ∧
      u.phase = .latched ∧ u.driven = false ∧ u.timer = none ∧ u.readback = o.readback ∧
      t.fault.latched = (s.field.latchedOutputs.isEmpty || s.fault.latched) ∧ t.fault.line = true ∧
      (s.fault.record = none →
        t.fault.record = some ⟨.outputReadback, some (.output n.val), s.timeBase, s.lifecycle⟩) ∧
      Untouched s t := by
  have fault := latchOutput_fault at_n
  have kept := finish_keepsRecord (s.latchOutput n)
  have indication : (s.latchOutput n).finish.fault.latched = (s.latchOutput n).fault.latched :=
    keepsIndication_carried.finish _
  obtain ⟨u, at_u, latched, off, timer, readback⟩ := finish_latched (latchOutput_output at_n) rfl rfl rfl
  refine ⟨(s.latchOutput n).finish, u, ?_, at_u, latched, off, timer, readback, by rw [indication, fault], ?_,
    fun absent => ?_, (latchOutput_untouched at_n).trans (finish_untouched _)⟩
  · rw [exec_mismatchTimerExpiry at_n, if_pos (mismatchExpires_iff.mpr ⟨differing, due⟩)]
    rfl
  · have written : ∃ r, (s.latchOutput n).fault.record = some r := by
      rw [fault]
      cases record : s.fault.record <;> simp [FaultUnit.takeReport, record]
    obtain ⟨r, record⟩ := written
    exact line_of_record (kept r record)
  · refine kept _ ?_
    rw [fault]
    simp [FaultUnit.takeReport, absent]

end

/-- Settles O49: the table of the driven level, its two occasions, then the commands of an output. -/
theorem outputsAreDrivenAndChecked : Obligations.OutputsAreDrivenAndChecked := by
  refine ⟨fun life setup o => ?_, fun s => ⟨rfl, by simp [State.fieldLifecycle], fun n o at_n => ?_⟩,
    fun s n v o at_n => updateOutput_eq at_n _, fun s n o v at_n => ?_⟩
  · obtain ⟨driven, hold, commanded⟩ := settle_follows life setup o
    dsimp only
    rw [driven, hold]
    refine ⟨drivenLevel_latched, drivenLevel_released, drivenLevel_held, ?_, fun active => if_pos active,
      fun off => if_neg off, commanded, fun latched => ?_, settle_stays, fun changed checks => ?_⟩
    · rintro unlatched rfl
      exact drivenLevel_active unlatched
    · rw [settle_latched latched]
      exact latched
    · exact settle_restarts changed (by rcases checks with h | h | h <;> simp [h, CheckPhase.checks])
  · simp [State.fieldLifecycle, at_n]
  · have change := fun other : v ≠ o.readback =>
      (exec_readbackLineChange at_n v).trans (by rw [if_neg other])
    dsimp only
    refine ⟨fun same => ?_, fun other watching differs => ?_, fun other differing agrees => ?_,
      fun other recorded => ?_, fun settling due agrees => ?_, fun settling due differs => ?_, fun stale => ?_,
      fun stale => ?_, fun differing due => ?_⟩
    · rw [exec_readbackLineChange at_n, if_pos same, withOutputAt_same at_n]
      exact answer_settles s
    · rw [change other, readbackChange_differs watching differs]
      exact answer_settles _
    · rw [change other, readbackChange_agrees differing agrees]
      exact answer_settles _
    · rw [change other, readbackChange_recorded recorded]
      exact answer_settles _
    · rw [exec_settleTimerExpiry at_n, settleExpiry_agrees settling due agrees]
      exact answer_settles _
    · rw [exec_settleTimerExpiry at_n, settleExpiry_differs settling due differs]
      exact answer_settles _
    · rw [exec_settleTimerExpiry at_n, settleExpiry_stale stale, withOutputAt_same at_n]
      exact answer_settles s
    · rw [exec_mismatchTimerExpiry at_n]
      exact settles_of_stale fun due =>
        stale.elim (· (mismatchExpires_iff.mp due).1) (· (mismatchExpires_iff.mp due).2)
    · obtain ⟨t, u, next, at_u, latched, off, timer, readback, indication, line, record, kept⟩ :=
        mismatch_latches at_n differing due
      exact ⟨t, u, next, at_u, latched, off, timer, readback, indication, line, record, kept.lifecycle, kept.image,
        kept.roster, kept.commit, kept.inputs⟩

end Sys2Proof.Machine

/-! SUPPORT. What the hand-offs of a command can report, and the clearing of the record and of the output faults (R154,
R157, R158, R159). -/

namespace Sys2Proof.Machine

/-! ### The reports of a command without waiting reports (R69, R129, R157) -/

/-- Whether a hand-off is a report to the fault unit. -/
def HandOff.isReport : HandOff → Bool
  | .report _ _ _ => true
  | .pointsApplied _ | .source _ _ | .lifecycleToEvaluator | .lifecycleToField | .pulse _ _ | .group _ => false

/-- R157: a fault unit that held `f` has taken no report but PULSE-OVERFLOW since. -/
structure FaultUnit.OverflowsOnly (f g : FaultUnit) : Prop where
  record : g.record = f.record ∨ ∃ r, g.record = some r ∧ r.kind = .pulseOverflow
  counts : ∀ k, k ≠ FaultKind.pulseOverflow.code → g.counts.getD k 0 = f.counts.getD k 0

/-- The fault unit held `f`, has taken no report but PULSE-OVERFLOW since, and no consequent report waits. -/
structure State.OverflowsOnly (f : FaultUnit) (s : State) : Prop where
  fault  : f.OverflowsOnly s.fault
  echoes : ∀ h ∈ s.echoes, h.isReport = false

section
variable {f : FaultUnit} {s t : State}

theorem FaultUnit.OverflowsOnly.refl (f : FaultUnit) : f.OverflowsOnly f := ⟨.inl rfl, fun _ _ => rfl⟩

/-- The fault unit and the consequent hand-offs are all that it reads. -/
theorem State.OverflowsOnly.of_same (h : s.OverflowsOnly f) (fault : t.fault = s.fault)
    (echoes : ∀ e ∈ t.echoes, e ∈ s.echoes ∨ e.isReport = false) : t.OverflowsOnly f :=
  ⟨fault ▸ h.fault, fun e mem => (echoes e mem).elim (h.echoes e) id⟩

/-- R157: a PULSE-OVERFLOW is written where no record is present, and counted under its own kind. -/
theorem FaultUnit.OverflowsOnly.takeReport {g : FaultUnit} (h : f.OverflowsOnly g) (subject : Option Subject)
    (stamp : Word16) (life : Lifecycle) : f.OverflowsOnly (g.takeReport .pulseOverflow subject stamp life) where
  record := by
    cases record : g.record with
    | none => exact .inr ⟨_, by simp [FaultUnit.takeReport, record]; rfl, rfl⟩
    | some r =>
      have same : (g.takeReport .pulseOverflow subject stamp life).record = g.record := by
        simp [FaultUnit.takeReport, record]
      rw [same]
      exact h.record
  counts k other := by
    rw [← h.counts k other]
    simp [FaultUnit.takeReport, bumpCount, List.getD_eq_getElem?_getD, Ne.symm other]

/-- R158: what the FAULT line hands on is no report. -/
theorem faultLineMoved_echoes (before : Bool) (s : State) :
    ∀ e ∈ (s.faultLineMoved before).echoes, e ∈ s.echoes ∨ e.isReport = false := by
  intro e mem
  unfold State.faultLineMoved at mem
  split at mem
  · exact .inl mem
  · rcases List.mem_append.mp mem with mem | mem
    · exact .inl mem
    · rw [List.mem_singleton.mp mem]
      exact .inr rfl

theorem takeReport_echoes (s : State) (kind : FaultKind) (subject : Option Subject) (life : Lifecycle) :
    ∀ e ∈ (s.takeReport kind subject life).echoes, e ∈ s.echoes ∨ e.isReport = false := by
  intro e mem
  unfold State.takeReport at mem
  have waits := faultLineMoved_echoes _ _ e mem
  split at waits <;> exact waits

/-- R134: done states are handed on as source changes. -/
theorem doneChanges_isReport (a b : TimerUnit) : ∀ e ∈ doneChanges a b, e.isReport = false := by
  intro e mem
  rcases List.mem_append.mp mem with mem | mem <;>
  · obtain ⟨x, -, handed⟩ := List.mem_filterMap.mp mem
    dsimp only at handed
    split at handed
    · split at handed
      · cases handed
      · cases handed
        rfl
    · cases handed

/-- R69: an edge request reports a PULSE-OVERFLOW or nothing. -/
theorem takeEdgeRequest_overflowsOnly (h : s.OverflowsOnly f) (r : EdgeRequest) :
    (s.takeEdgeRequest r).OverflowsOnly f := by
  unfold State.takeEdgeRequest
  split
  · exact h.of_same rfl fun _ => .inl
  · exact h.of_same rfl fun _ => .inl
  · split
    · exact h.of_same rfl fun _ => .inl
    · refine ⟨?_, fun e mem => (takeReport_echoes _ _ _ _ e mem).elim (h.echoes e) id⟩
      rw [report_fault]
      exact h.fault.takeReport _ _ _
  all_goals exact h

theorem takeEdgeRequests_overflowsOnly (rs : List EdgeRequest) :
    ∀ {s : State}, s.OverflowsOnly f → (rs.foldl State.takeEdgeRequest s).OverflowsOnly f := by
  induction rs with
  | nil => exact id
  | cons r rs ih => exact fun h => ih (takeEdgeRequest_overflowsOnly h r)

/-- R129: of one event only the edge requests can report. -/
theorem takeEvalEvent_overflowsOnly (h : s.OverflowsOnly f) (event : EvalEvent) :
    (s.takeEvalEvent event).OverflowsOnly f := by
  have asked : (s.requestsTaken event).OverflowsOnly f :=
    takeEdgeRequests_overflowsOnly _ (h.of_same rfl fun _ => .inl)
  obtain ⟨e, c, eq⟩ := takeEvalEvent_fields s event
  refine asked.of_same (by rw [eq]; rfl) fun e mem => ?_
  rw [takeEvalEvent_echoes] at mem
  exact (List.mem_append.mp mem).imp_right (doneChanges_isReport _ _ e)

theorem takeHandOff_overflowsOnly (h : s.OverflowsOnly f) {e : HandOff} (other : e.isReport = false) :
    (s.takeHandOff e).OverflowsOnly f := by
  cases e with
  | pointsApplied changes => exact h.of_same rfl fun _ => .inl
  | source x on => exact takeEvalEvent_overflowsOnly h _
  | lifecycleToEvaluator => exact takeEvalEvent_overflowsOnly h _
  | lifecycleToField => exact h.of_same rfl fun _ => .inl
  | pulse p n => exact h.of_same rfl fun e mem => (List.mem_append.mp mem).imp_right (doneChanges_isReport _ _ e)
  | group bodies => exact h.of_same rfl fun _ => .inl
  | report kind subject life => cases other

/-- R157: where no report waits, a command's hand-offs report nothing but a PULSE-OVERFLOW. -/
theorem Takes.overflowsOnly {n : Nat} (takes : Takes n s t) (unreported : ∀ e ∈ s.agenda, e.isReport = false)
    (h : s.OverflowsOnly f) : t.OverflowsOnly f := by
  induction takes with
  | done s k => exact h.of_same rfl fun _ => .inl
  | @task s t n i e k may _ ih =>
    have drawn : State.OverflowsOnly f { s with agenda := s.agenda.eraseIdx i, freeIndex := k } :=
      h.of_same rfl fun _ => .inl
    refine ih ?_ (takeHandOff_overflowsOnly drawn (unreported e (List.mem_of_getElem? may.1)))
    rw [takeHandOff_agenda]
    exact fun e mem => unreported e (List.mem_of_mem_eraseIdx mem)
  | @echo s t n i e k may _ ih =>
    have drawn : State.OverflowsOnly f { s with echoes := s.echoes.eraseIdx i, freeIndex := k } :=
      h.of_same rfl fun _ mem => .inl (List.mem_of_mem_eraseIdx mem)
    refine ih ?_ (takeHandOff_overflowsOnly drawn (h.echoes e (List.mem_of_getElem? may.1)))
    rw [takeHandOff_agenda]
    exact unreported

theorem finish_overflowsOnly (agenda : s.agenda = []) (h : s.OverflowsOnly f) : s.finish.OverflowsOnly f := by
  obtain ⟨n, takes, -⟩ := finish_takes s
  exact takes.overflowsOnly (by simp [agenda]) h

end

/-! ### The clearing of output faults (R154) -/

section
variable {s : State}

/-- R154: a check in SETTLING from zero whose driven level is the commanded one. -/
def FieldOutput.Begun (o : FieldOutput) : Prop :=
  o.phase = .settling ∧ o.timer = some 0 ∧ o.driven = o.commanded ∧ o.hold = o.driven

/-- R149, R152: while ACTIVE an output in SETTLING from zero stays so, whatever is commanded. -/
theorem settle_begun {setup : OutputSetup} {o : FieldOutput} (settling : o.phase = .settling)
    (timer : o.timer = some 0) : (FieldOutput.settle .active setup o).Begun := by
  have level : drivenLevel .active setup o = o.commanded := drivenLevel_active (by simp [settling])
  rw [settle_eq, level]
  rcases drive_cases o.commanded o with ⟨eq, -⟩ | ⟨eq, -⟩ <;> rw [eq]
  · exact ⟨settling, timer, rfl, rfl⟩
  · exact ⟨rfl, rfl, rfl, rfl⟩

theorem finish_begun {n : Nat} {o : FieldOutput} (life : s.lifecycle = .active)
    (at_n : s.field.outputs[n]? = some o) (begun : o.Begun) :
    ∃ u, s.finish.field.outputs[n]? = some u ∧ u.Begun := by
  refine finish_output_some ?_ at_n begun
  rintro setup level o ⟨settling, timer, -⟩
  rw [life]
  exact settle_begun settling timer

/-- R154: what was latched goes back to SETTLING. -/
theorem clearFault_unlatched (life : Lifecycle) (setup : OutputSetup) (o : FieldOutput) :
    (o.clearFault life setup).phase ≠ .latched := by
  unfold FieldOutput.clearFault
  split
  · exact settle_unlatched (by simp)
  · assumption

/-- R153: the latched set, by the outputs. -/
theorem latchedOutputs_eq_nil_iff {u : FieldUnit} :
    u.latchedOutputs = [] ↔ ∀ (n : Nat), ∀ o ∈ u.outputs[n]?, o.phase ≠ .latched := by
  rw [FieldUnit.latchedOutputs, List.filter_eq_nil_iff]
  constructor
  · intro none n o at_n latched
    obtain ⟨inside, -⟩ := List.getElem?_eq_some_iff.mp at_n
    exact none n (List.mem_range.mpr inside) (by simp [Option.mem_def.mp at_n, latched])
  · intro unlatched n _ latched
    split at latched
    · rename_i o at_n
      exact unlatched n o at_n (of_decide_eq_true latched)
    · cases latched

/-- R153: no hand-off latches an output. -/
theorem finish_latchedOutputs (none : s.field.latchedOutputs = []) : s.finish.field.latchedOutputs = [] := by
  rw [latchedOutputs_eq_nil_iff] at none ⊢
  refine fun n => finish_output (P := fun x => ∀ o ∈ x, o.phase ≠ .latched) ?_ (none n)
  rintro setup level x unlatched o mem
  obtain ⟨o', mem', rfl⟩ := Option.mem_map.mp mem
  exact settle_unlatched (o := { o' with commanded := level o' }) (unlatched o' mem')

/-! ### CLEAR-FAULT at the blocks (R154, R159) -/

variable (s) (counts : Bool)

theorem clearRecord_fault : (s.clearRecord counts).fault = { s.fault with
    record := none
    counts := if counts then List.replicate 10 0 else s.fault.counts } := faultLineMoved_fault _ _

theorem clearRecord_field : (s.clearRecord counts).field = s.field := faultLineMoved_field _ _

theorem clearRecord_untouched : Untouched s (s.clearRecord counts) :=
  Untouched.trans (b := { s with fault := { s.fault with
      record := none
      counts := if counts then List.replicate 10 0 else s.fault.counts } })
    (by constructor <;> rfl) (faultLineMoved_untouched _ _)

/-- R154: the station once every output's fault has been cleared, before the set is handed on. -/
def State.outputsCleared (s : State) : State :=
  { s with field := { s.field with
    outputs := s.field.outputs.mapIdx fun n o => FieldOutput.clearFault s.lifecycle (s.setup.output n) o } }

/-- R154: the set that becomes empty is handed on where it was not empty. -/
theorem clearOutputFaults_eq : s.clearOutputFaults =
    if s.field.latchedOutputs.isEmpty then s.outputsCleared else s.outputsCleared.latchedIndication false := rfl

theorem clearOutputFaults_field : s.clearOutputFaults.field = s.outputsCleared.field := by
  rw [clearOutputFaults_eq]
  split
  · rfl
  · exact latchedIndication_field _ _

theorem clearOutputFaults_fault : s.clearOutputFaults.fault =
    { s.fault with latched := s.fault.latched && s.field.latchedOutputs.isEmpty } := by
  rw [clearOutputFaults_eq]
  split
  · rename_i empty
    rw [empty, Bool.and_true]
    rfl
  · rename_i some
    rw [latchedIndication_fault, Bool.eq_false_iff.mpr some, Bool.and_false]
    rfl

theorem clearOutputFaults_untouched : Untouched s s.clearOutputFaults := by
  have cleared : Untouched s s.outputsCleared := by constructor <;> rfl
  rw [clearOutputFaults_eq]
  split
  · exact cleared
  · exact cleared.trans (latchedIndication_untouched _ _)

theorem clearFaults_untouched : Untouched s (s.clearFaults counts) :=
  (clearRecord_untouched s counts).trans (clearOutputFaults_untouched _)

/-- R159: the fault unit after a CLEAR-FAULT. -/
theorem clearFaults_fault : (s.clearFaults counts).fault =
    { record := none
      counts := if counts then List.replicate 10 0 else s.fault.counts
      latched := s.fault.latched && s.field.latchedOutputs.isEmpty } := by
  rw [State.clearFaults, clearOutputFaults_fault, clearRecord_fault, clearRecord_field]

/-- R154: the outputs after a CLEAR-FAULT. -/
theorem clearFaults_output (n : Nat) : (s.clearFaults counts).field.outputs[n]? =
    s.field.outputs[n]?.map fun o => FieldOutput.clearFault s.lifecycle (s.setup.output n) o := by
  have kept := clearRecord_untouched s counts
  rw [State.clearFaults, clearOutputFaults_field, State.outputsCleared]
  simp only [List.getElem?_mapIdx, clearRecord_field, kept.lifecycle, State.setup, kept.loader]

theorem clearFaults_latchedOutputs : (s.clearFaults counts).field.latchedOutputs = [] := by
  refine latchedOutputs_eq_nil_iff.mpr fun n o mem => ?_
  rw [clearFaults_output] at mem
  obtain ⟨o', -, rfl⟩ := Option.mem_map.mp mem
  exact clearFault_unlatched _ _ o'

/-- R158: what a CLEAR-FAULT hands on is the FAULT line. -/
theorem clearFaults_echoes : ∀ e ∈ (s.clearFaults counts).echoes, e ∈ s.echoes ∨ e.isReport = false := by
  intro e mem
  rw [State.clearFaults, clearOutputFaults_eq] at mem
  have record : e ∈ (s.clearRecord counts).echoes → e ∈ s.echoes ∨ e.isReport = false :=
    faultLineMoved_echoes _ _ e
  split at mem
  · exact record mem
  · exact (faultLineMoved_echoes _ _ e mem).elim record .inr

end

end Sys2Proof.Machine

/-! SUPPORT. The requests that act as they are accepted: CLEAR-FAULT, ARM-CAPTURE and RELEASE-STATION (R154, R159, R162,
R166, R168, R172, R173). -/

namespace Sys2Proof.Machine

/-! ### The session of a request (R166, R168) -/

section
variable {s : State} {x y : Station} {tag : Byte}

/-- R166: a session opens where none is open. -/
theorem exec_request_session {c : Instr} {q : Request} (carries : c.frame? = some (.svcReq x s.number tag q))
    (closed : s.service.session = none) (h : TakesRequest s x tag q) :
    exec c s = ((s.afterHeard (.svcReq x s.number tag q)).openSession x tag q).answer := by
  have closed' : (s.afterHeard (.svcReq x s.number tag q)).service.session = none := closed
  rw [exec_request_taken carries h, State.takeServiceRequest, closed']

/-- R166, R168: the session `ss` of a station, with its first part handed into the response slot. -/
def State.sessionPut (s : State) (ss : Session) : State :=
  State.handResponse { s with service := { s.service with session := some ss } }

theorem sessionPut_eq (s : State) (ss : Session) : s.sessionPut ss =
    { s with
      service := { s.service with session := some ss }
      asm := { s.asm with
        responseSlot := s.asm.responseSlot.or (nextResponse { s.service with session := some ss }) } } :=
  handResponse_eq _

/-- R168: the slots and the session at the end of a command that has opened session `ss`. -/
theorem finish_sessionPut (s : State) (ss : Session) :
    (s.sessionPut ss).finish.service = { s.service with session := some ss } ∧
    (s.sessionPut ss).finish.asm.responseSlot = (s.sessionPut ss).asm.responseSlot ∧
    (s.sessionPut ss).finish.asm.releaseSlot = s.asm.releaseSlot ∧
    (s.sessionPut ss).finish.image = s.image := by
  have kept := finish_untouched (s.sessionPut ss)
  refine ⟨kept.service.trans ?_, kept.responseSlot, kept.releaseSlot.trans ?_, kept.image.trans ?_⟩ <;>
    rw [sessionPut_eq]

section
variable (s : State) (ss : Session) (counts : Bool)

/-- R158, R168: opening a session changes neither the outputs nor the fault unit, and hands nothing on. -/
theorem sessionPut_blocks : (s.sessionPut ss).field = s.field ∧ (s.sessionPut ss).fault = s.fault ∧
    (s.sessionPut ss).lifecycle = s.lifecycle ∧ (s.sessionPut ss).agenda = s.agenda ∧
    (s.sessionPut ss).echoes = s.echoes := by
  rw [sessionPut_eq]
  exact ⟨rfl, rfl, rfl, rfl, rfl⟩

/-- R154, R158, R159: the field line unit and the fault unit once a CLEAR-FAULT's hand-offs have been taken. -/
theorem finish_clearFaults (life : s.lifecycle = .active) :
    let t := ((s.clearFaults counts).sessionPut ss).finish
    t.fault.latched = (s.fault.latched && s.field.latchedOutputs.isEmpty) ∧ t.field.latchedOutputs = [] ∧
    (∀ (n : Nat) (o : FieldOutput), s.field.outputs[n]? = some o → o.phase = .latched →
      ∃ u, t.field.outputs[n]? = some u ∧ u.Begun) ∧
    (s.Quiet → FaultUnit.OverflowsOnly (s.clearFaults counts).fault t.fault) ∧ t.lifecycle = .active := by
  have cleared := clearFaults_untouched s counts
  obtain ⟨field, fault, lifecycle, agenda, echoes⟩ := sessionPut_blocks (s.clearFaults counts) ss
  set w := (s.clearFaults counts).sessionPut ss
  have active : w.lifecycle = .active := lifecycle.trans (cleared.lifecycle.trans life)
  have indication : w.finish.fault.latched = w.fault.latched := keepsIndication_carried.finish w
  refine ⟨?_, finish_latchedOutputs (field ▸ clearFaults_latchedOutputs s counts), fun n o at_n latched => ?_,
    fun quiet => ?_, (finish_untouched w).lifecycle.trans active⟩
  · rw [indication, fault, clearFaults_fault]
  · have cleared_n : w.field.outputs[n]? = some (FieldOutput.clearFault s.lifecycle (s.setup.output n) o) := by
      rw [field, clearFaults_output, at_n]
      rfl
    refine finish_begun active cleared_n ?_
    rw [life, FieldOutput.clearFault, if_pos latched]
    exact settle_begun rfl rfl
  · have drained : w.agenda = [] := agenda.trans ((clearFaults_keepsLink s counts).agenda.trans quiet.1)
    have unreported : w.OverflowsOnly (s.clearFaults counts).fault := by
      refine ⟨fault ▸ .refl _, fun e mem => ?_⟩
      rw [echoes] at mem
      exact (clearFaults_echoes s counts e mem).elim (fun waits => by simp [quiet.2] at waits) id
    exact (finish_overflowsOnly drained unreported).fault

end

/-- R166, R168: the state in which a request opens its session, by what the requester's frame leaves. -/
theorem opened_eq (s : State) (f : Frame) (ss : Session) : opened s f ss = (s.afterHeard f).sessionPut ss := rfl

/-- R173: the target's roster state is the same once the requester has been heard. -/
theorem afterHeard_stateOf (s : State) (f : Frame) (y : Station) :
    (s.afterHeard f).roster.stateOf y = s.roster.stateOf y :=
  Roster.stateOf_update (f := fun e => { e with silence := some 0 }) (fun _ => rfl) y

/-! ### The sessions of the requests that act (R166, R172, R173) -/

theorem openSession_clearFault (u : State) (counts : Bool) : u.openSession x tag (.clearFault counts) =
    (u.clearFaults counts).sessionPut ⟨x, tag, .clearFault counts, 1, 1, false, .done⟩ := rfl

theorem openSession_armCapture (u : State) : u.openSession x tag .armCapture =
    State.sessionPut { u with capture := u.capture.arm } ⟨x, tag, .armCapture, 1, 1, false, .done⟩ := rfl

/-- R173: a LOST station's RELEASE is handed in. -/
theorem openSession_release {u : State} (lost : u.roster.stateOf y = .lost) :
    u.openSession x tag (.releaseStation y) =
      State.sessionPut { u with asm := { u.asm with releaseSlot := some y } }
        ⟨x, tag, .releaseStation y, 1, 1, true, .done⟩ := by
  simp only [State.openSession, lost, if_true]
  rfl

/-- R173: a station that is not LOST is not released. -/
theorem openSession_refused {u : State} (present : u.roster.stateOf y ≠ .lost) :
    u.openSession x tag (.releaseStation y) = u.sessionPut ⟨x, tag, .releaseStation y, 1, 1, false, .refused⟩ := by
  simp only [State.openSession, present, if_false]
  rfl

/-- R154, R159, R168, R172: CLEAR-FAULT acts as it is accepted. -/
theorem exec_clearFault_acts {counts : Bool} (closed : s.service.session = none)
    (h : TakesRequest s x tag (.clearFault counts)) :
    ∃ t, exec (.clearFault x s.number tag counts) s = .next t ∧
      t.service = { s.service with session := some ⟨x, tag, .clearFault counts, 1, 1, false, .done⟩ } ∧
      t.asm.responseSlot = (if s.asm.responseSlot = none then nextResponse t.service else s.asm.responseSlot) ∧
      t.fault.latched = (s.fault.latched && s.field.latchedOutputs.isEmpty) ∧ t.field.latchedOutputs = [] ∧
      (∀ (n : Nat) (o : FieldOutput), s.field.outputs[n]? = some o → o.phase = .latched →
        ∃ u, t.field.outputs[n]? = some u ∧ u.Begun) ∧
      (s.Quiet → FaultUnit.OverflowsOnly
        { s.fault with record := none, counts := if counts then List.replicate 10 0 else s.fault.counts } t.fault) ∧
      t.lifecycle = .active ∧ t.image = s.image := by
  have acts := exec_request_session (c := .clearFault x s.number tag counts) rfl closed h
  rw [openSession_clearFault] at acts
  set u := s.afterHeard (.svcReq x s.number tag (.clearFault counts))
  have cleared := clearFaults_untouched u counts
  obtain ⟨service, response, -, image⟩ := finish_sessionPut (u.clearFaults counts)
    ⟨x, tag, .clearFault counts, 1, 1, false, .done⟩
  obtain ⟨latched, emptied, begun, reports, life⟩ := finish_clearFaults u
    ⟨x, tag, .clearFault counts, 1, 1, false, .done⟩ counts h.1
  rw [cleared.service] at service
  refine ⟨_, acts, service, ?_, latched, emptied, begun, fun quiet => ?_, life, image.trans cleared.image⟩
  · rw [response, service, sessionPut_eq, cleared.service, cleared.responseSlot]
    change s.asm.responseSlot.or _ = _
    cases s.asm.responseSlot <;> simp
  · have taken := reports quiet
    rw [clearFaults_fault] at taken
    exact ⟨taken.record, taken.counts⟩

end

/-- Settles O41: CLEAR-FAULT, ARM-CAPTURE, then RELEASE-STATION by the target's standing. -/
theorem commandRequestsAct : Obligations.CommandRequestsAct := by
  intro s x y tag counts closed
  refine ⟨fun h => ?_, fun h => ?_, fun h => ⟨fun lost => ?_, fun present => ?_⟩⟩
  · obtain ⟨t, next, service, response, latched, emptied, begun, reports, life, image⟩ :=
      exec_clearFault_acts closed h
    refine ⟨t, next, by rw [service], fun quiet => (reports quiet).record, latched, fun quiet _ k other => ?_,
      emptied, begun, by rw [service], response, life, image⟩
    rw [(reports quiet).counts k other]
    cases counts
    · rfl
    · exact List.getElem?_getD_replicate_default_eq ..
  · rw [exec_request_session (c := .armCapture x s.number tag) rfl closed h, openSession_armCapture, opened_eq,
      sessionPut_eq, sessionPut_eq]
    exact answer_settles _
  · have acts := exec_request_session (c := .releaseStation x s.number tag y) rfl closed h
    rw [openSession_release ((afterHeard_stateOf _ _ _).trans lost)] at acts
    obtain ⟨service, response, release, image⟩ := finish_sessionPut
      { s.afterHeard (.svcReq x s.number tag (.releaseStation y)) with
        asm := { (s.afterHeard (.svcReq x s.number tag (.releaseStation y))).asm with releaseSlot := some y } }
      ⟨x, tag, .releaseStation y, 1, 1, true, .done⟩
    refine ⟨_, acts, release, by rw [service], ?_, image⟩
    rw [response, opened_eq, sessionPut_eq, sessionPut_eq]
  · rw [exec_request_session (c := .releaseStation x s.number tag y) rfl closed h,
      openSession_refused fun lost => present ((afterHeard_stateOf _ _ _).symm.trans lost), ← opened_eq]
    exact answer_settles _

end Sys2Proof.Machine

/-! SUPPORT. A report at the fault unit and the FAULT line (R157, R158, R163), and the capture ring: the newest 48
records, the group of one frame and the trigger (R161 to R163). -/

namespace Sys2Proof.Machine

/-! ### Reports and the FAULT line (R157, R158, R163) -/

/-- R157: the count of the kind increases, saturating at 255, and every other count stays. -/
theorem bumpCount_getD {counts : List Nat} {j : Nat} (inside : j < counts.length) (k : FaultKind) :
    (bumpCount counts k).getD j 0 =
      if j = k.code ∧ counts.getD j 0 < 255 then counts.getD j 0 + 1 else counts.getD j 0 := by
  have at_j := List.getElem?_eq_getElem inside
  simp only [bumpCount, List.getD_eq_getElem?_getD, List.getElem?_modify, at_j, Option.map_eq_map, Option.map_some,
    Option.getD_some]
  by_cases same : j = k.code
  · simp [same]
  · simp [same, Ne.symm same]

/-- R157: the record after a report: the one before, or the report's where none was present. -/
theorem takeReport_record (f : FaultUnit) (k : FaultKind) (subject : Option Subject) (stamp : Word16)
    (life : Lifecycle) :
    (f.takeReport k subject stamp life).record = some (f.record.getD ⟨k, subject, stamp, life⟩) := by
  cases record : f.record <;> simp [FaultUnit.takeReport, record]

/-- R158: the FAULT line is ON after a report. -/
theorem takeReport_line (f : FaultUnit) (k : FaultKind) (subject : Option Subject) (stamp : Word16)
    (life : Lifecycle) : (f.takeReport k subject stamp life).line = true := by
  rw [FaultUnit.line, takeReport_record]
  rfl

/-- R158: a fault unit that takes the place of the one before hands on a change of its line. -/
theorem faultLineMoved_showsFault (s : State) (f : FaultUnit) :
    State.faultLineMoved s.fault.line { s with fault := f } = showsFault s f := rfl

/-- R157, R158, R163: one report, its trigger and the FAULT line. -/
theorem takeReport_showsFault (s : State) (k : FaultKind) (subject : Option Subject) (life : Lifecycle) :
    s.takeReport k subject life = showsFault
      { s with capture := if s.fault.record = none ∧ s.setup.capture.faultTrigger = true
          then s.capture.takeTrigger s.setup.capture.postCount else s.capture }
      (s.fault.takeReport k subject s.timeBase life) := by
  have setup : ∀ f, State.setup { s with fault := f } = s.setup := fun _ => rfl
  rw [← faultLineMoved_showsFault]
  unfold State.takeReport
  simp only [setup]
  cases record : s.fault.record <;> cases trigger : s.setup.capture.faultTrigger <;> rfl

/-! ### The newest records (R161) -/

/-- The 48 newest of a list of records, all of them where it is shorter. -/
def newest (l : List CaptureRecord) : List CaptureRecord := l.drop (l.length - 48)

theorem newest_length (l : List CaptureRecord) : (newest l).length ≤ 48 := by
  rw [newest, List.length_drop]
  omega

theorem newest_of_short {l : List CaptureRecord} (short : l.length ≤ 48) : newest l = l := by
  rw [newest, Nat.sub_eq_zero_of_le short, List.drop_zero]

/-- What is lost before more records come would be lost with them. -/
theorem newest_append (l m : List CaptureRecord) : newest (newest l ++ m) = newest (l ++ m) := by
  have inside : l.length - 48 ≤ l.length := Nat.sub_le _ _
  have dropped : newest l ++ m = (l ++ m).drop (l.length - 48) := (List.drop_append_of_le_length inside).symm
  rw [dropped]
  simp only [newest, List.drop_drop, List.length_drop, List.length_append]
  congr 1
  omega

/-! ### Records added one by one (R161, R162) -/

namespace CaptureUnit

variable (c : CaptureUnit) (stamp : Word16) (ordinal : Byte)

/-- R161: capture with records of one frame added, each with the next index. -/
def withRecords (bodies : List RecordBody) : CaptureUnit :=
  { c with
    ring := newest (c.ring ++ bodies.mapIdx fun i body => ⟨c.nextIndex + BitVec.ofNat 16 i, ordinal, stamp, body⟩)
    nextIndex := c.nextIndex + BitVec.ofNat 16 bodies.length }

variable {c}

/-- R161: a full ring loses its oldest record. -/
theorem addRecord_eq (fits : c.ring.length ≤ 48) (body : RecordBody) : c.addRecord stamp ordinal body =
    { c with ring := newest (c.ring ++ [⟨c.nextIndex, ordinal, stamp, body⟩]), nextIndex := c.nextIndex + 1 } := by
  unfold addRecord newest Config.ringCapacity
  simp only [List.length_append, List.length_singleton]
  split
  · rw [List.drop_append_of_le_length (by omega)]
  · rw [show c.ring.length + 1 - 48 = 0 by omega, List.drop_zero]

theorem withRecords_nil (fits : c.ring.length ≤ 48) : c.withRecords stamp ordinal [] = c := by
  simp [withRecords, newest_of_short fits]

/-- R161: consecutive indices. -/
theorem withRecords_cons (fits : c.ring.length ≤ 48) (body : RecordBody) (rest : List RecordBody) :
    c.withRecords stamp ordinal (body :: rest) =
      (c.addRecord stamp ordinal body).withRecords stamp ordinal rest := by
  have next : ∀ i, c.nextIndex + BitVec.ofNat 16 (i + 1) = c.nextIndex + 1 + BitVec.ofNat 16 i := fun i => by
    rw [BitVec.ofNat_add, BitVec.add_comm (BitVec.ofNat 16 i), ← BitVec.add_assoc]
    rfl
  simp only [withRecords, addRecord_eq stamp ordinal fits, newest_append, List.append_assoc, List.singleton_append,
    List.mapIdx_cons, List.length_cons, next, BitVec.add_zero]

theorem addRecord_mode (body : RecordBody) : (c.addRecord stamp ordinal body).mode = c.mode := rfl

/-- R162: while ARMED capture takes every record. -/
theorem addRecords_armed (bodies : List RecordBody) : ∀ {c : CaptureUnit}, c.mode = .armed → c.ring.length ≤ 48 →
    c.addRecords stamp ordinal bodies = c.withRecords stamp ordinal bodies := by
  induction bodies with
  | nil => exact fun _ fits => (withRecords_nil stamp ordinal fits).symm
  | cons body rest ih =>
    intro c armed fits
    rw [withRecords_cons stamp ordinal fits, addRecords, armed]
    exact ih ((addRecord_mode stamp ordinal body).trans armed) (addRecord_ring fits stamp ordinal body)

/-- R162: while TRIGGERED capture takes as many records as its post count leaves, and the last of them freezes it. -/
theorem addRecords_triggered (bodies : List RecordBody) : ∀ {c : CaptureUnit}, c.mode = .triggered →
    1 ≤ c.remaining → c.ring.length ≤ 48 → c.addRecords stamp ordinal bodies =
      { c.withRecords stamp ordinal (bodies.take c.remaining) with
        remaining := c.remaining - bodies.length
        mode := if c.remaining ≤ bodies.length then .frozen else .triggered } := by
  induction bodies with
  | nil =>
    intro c triggered some fits
    rw [List.take_nil, withRecords_nil stamp ordinal fits, List.length_nil, if_neg (by omega), ← triggered]
    rfl
  | cons body rest ih =>
    intro c triggered some fits
    obtain ⟨left, post⟩ : ∃ left, c.remaining = left + 1 := ⟨c.remaining - 1, by omega⟩
    have taken : c.withRecords stamp ordinal ((body :: rest).take c.remaining) =
        (c.addRecord stamp ordinal body).withRecords stamp ordinal (rest.take left) := by
      rw [post, List.take_succ_cons, withRecords_cons stamp ordinal fits]
    have added := addRecord_ring fits stamp ordinal body
    rw [taken, addRecords, triggered, post, List.length_cons]
    simp only [Nat.add_sub_cancel, Nat.add_sub_add_right, Nat.add_le_add_iff_right]
    cases left with
    | zero => simp [withRecords_nil stamp ordinal added]
    | succ left =>
      rw [if_neg (Nat.succ_ne_zero left)]
      exact ih (c := { c.addRecord stamp ordinal body with remaining := left + 1 }) triggered (Nat.le_add_left ..) added

/-- R162: capture that is FROZEN or OFF takes no record. -/
theorem addRecords_closed (closed : c.mode = .frozen ∨ c.mode = .off) (bodies : List RecordBody) :
    c.addRecords stamp ordinal bodies = c := by
  cases bodies with
  | nil => rfl
  | cons body rest => rcases closed with mode | mode <;> simp only [addRecords, mode]

/-! ### The group of a frame and the trigger (R161 to R163) -/

/-- R161: a frame without a record, and capture that takes none, use no ordinal. -/
theorem addGroup_none {bodies : List RecordBody} (none : bodies = [] ∨ c.mode = .frozen ∨ c.mode = .off) :
    c.addGroup stamp bodies = c := by
  refine if_pos ?_
  rcases none with rfl | mode | mode <;> simp [*]

/-- R161: the records of one frame take the next ordinal. -/
theorem addGroup_some {bodies : List RecordBody} (some : bodies ≠ [])
    (takes : c.mode = .armed ∨ c.mode = .triggered) : c.addGroup stamp bodies =
      { c.addRecords stamp c.nextOrdinal bodies with nextOrdinal := c.nextOrdinal + 1 } := by
  refine if_neg ?_
  rcases takes with mode | mode <;> simp [some, mode]

end CaptureUnit

/-- Settles O50: a report at the fault unit, the FAULT line, then the ring, the trigger and the group by the mode. -/
theorem reportsAndRecordsAreKept : Obligations.ReportsAndRecordsAreKept := by
  refine ⟨fun f k subject stamp life ten => ?_, takeReport_showsFault, fun s on => ⟨rfl, rfl⟩,
    fun c stamp ordinal body bodies post => ?_⟩
  · have record := takeReport_record f k subject stamp life
    refine ⟨fun absent => ?_, fun r present => ?_, fun j inside => bumpCount_getD (ten ▸ inside) k,
      takeReport_line f k subject stamp life, rfl⟩
    · rw [record, absent, Option.getD_none]
    · rw [record, present, Option.getD_some]
  · refine ⟨fun fits => ?_, fun armed => ?_, fun unarmed => if_neg unarmed,
      CaptureUnit.addRecords_armed stamp ordinal bodies, CaptureUnit.addRecords_triggered stamp ordinal bodies,
      fun closed => CaptureUnit.addRecords_closed stamp ordinal closed bodies,
      CaptureUnit.addGroup_none stamp, CaptureUnit.addGroup_some stamp⟩
    · rw [CaptureUnit.addRecord_eq stamp ordinal fits]
      refine ⟨?_, rfl, newest_length _⟩
      rw [newest, List.length_append, List.length_singleton]
    · rw [CaptureUnit.takeTrigger, if_pos armed]
      exact ⟨rfl, rfl, rfl⟩

end Sys2Proof.Machine

/-! SUPPORT. The first-fault record from a state to what each operation of the station makes of it: only a CLEAR-FAULT
and a reset of every block take it away (R157, R159, R160, R176, R183). -/

namespace Sys2Proof.Machine

/-! ### Keeping the record (R157) -/

namespace KeepsRecord

variable {s t u : State} {c : Prop} [Decidable c]

theorem refl (s : State) : KeepsRecord s s := keepsRecord_carried.refl s

theorem trans (h : KeepsRecord s t) (k : KeepsRecord t u) : KeepsRecord s u := keepsRecord_carried.trans h k

theorem of_fault (same : t.fault = s.fault) : KeepsRecord s t := fun _ h => by rw [same, h]

theorem after (h : KeepsRecord u t) (same : u.fault = s.fault) : KeepsRecord s t := (of_fault same).trans h

theorem ite (h : KeepsRecord s t) (k : KeepsRecord s u) : KeepsRecord s (if c then t else u) := by
  split
  · exact h
  · exact k

/-- An operation that may act, and leaves the state as it is where it does not. -/
theorem ifActs (h : KeepsRecord s t) : KeepsRecord s (if c then t else s) := h.ite (.refl s)

theorem foldl {α : Type} {f : State → α → State} (hf : ∀ s a, KeepsRecord s (f s a)) (l : List α) (s : State) :
    KeepsRecord s (l.foldl f s) := keepsRecord_carried.toKept.foldl f hf l s

end KeepsRecord

theorem report_keepsRecord (s : State) (kind : FaultKind) (subject : Option Subject) :
    KeepsRecord s (s.report kind subject) := takeReport_keepsRecord s kind subject s.lifecycle

theorem someTasks_keepsRecord (s : State) : KeepsRecord s s.someTasks := keepsRecord_carried.someTasks s

theorem runTasks_keepsRecord (n : Nat) (s : State) : KeepsRecord s (runTasks n s) := keepsRecord_carried.runTasks n s

/-- R158: the latched-output indication is no part of the record. -/
theorem latchedIndication_keepsRecord (s : State) (on : Bool) : KeepsRecord s (s.latchedIndication on) := fun _ h => by
  rw [latchedIndication_fault, h]

/-! ### RESTART and departures (R113, R115, R160, R174, R177, R183) -/

theorem readStraps_keepsRecord (s : State) : KeepsRecord s s.readStraps := by
  cases strapped : isStation s.loader.straps.toNat
  · rw [readStraps_refused strapped]
    exact report_keepsRecord { s with loader := { s.loader with held := false, phase := .none } } .stationStrap none
  · rw [readStraps_number strapped]
    exact .of_fault rfl

/-- R160: the record outlives a RESTART, whatever its straps say. -/
theorem performRestart_keepsRecord (s : State) : KeepsRecord s s.performRestart := by
  have cleared : KeepsRecord s s.cleared := fun _ h => h
  rw [performRestart_eq]
  exact cleared.trans (readStraps_keepsRecord _)

theorem restartAfter_keepsRecord (s : State) : KeepsRecord s s.restartAfter := by
  have reports : KeepsRecord s.someTasks s.someTasks.reportsOnly := .of_fault rfl
  rw [restartAfter_eq]
  exact (someTasks_keepsRecord s).trans
    (reports.trans ((runTasks_keepsRecord _ _).trans (performRestart_keepsRecord _)))

/-- R113, R174: a departure, a RESTART in its place or not. -/
theorem departs_keepsRecord (s : State) : KeepsRecord s s.departs := by
  have left : ∀ holdoff, KeepsRecord s (s.someTasks.leaveLink .detached holdoff) := fun holdoff =>
    (someTasks_keepsRecord s).trans (keepsRecord_leaveLink _ .detached holdoff)
  have echoed : ∀ u : State, KeepsRecord u u.someEchoes := keepsRecord_carried.toKept.someEchoes
  unfold State.departs
  exact .ite ((left none).trans ((runTasks_keepsRecord _ _).trans ((echoed _).trans (performRestart_keepsRecord _))))
    (left (some 0))

theorem detach_keepsRecord (s : State) (cause : Option FaultKind) : KeepsRecord s (s.detach cause) := by
  cases cause with
  | none => exact departs_keepsRecord s
  | some k =>
    exact (someTasks_keepsRecord s).trans ((report_keepsRecord _ k none).trans (departs_keepsRecord _))

theorem toLinkFault_keepsRecord (s : State) (cause : FaultKind) : KeepsRecord s (s.toLinkFault cause) :=
  (report_keepsRecord s cause none).trans
    ((someTasks_keepsRecord _).trans (keepsRecord_leaveLink _ .linkFault none))

theorem returnToListen_keepsRecord (s : State) : KeepsRecord s s.returnToListen :=
  .ite (.of_fault rfl) (toLinkFault_keepsRecord s _)

/-! ### The service unit (R159, R165 to R169) -/

theorem ServiceOnly.fault {s t : State} (h : ServiceOnly s t) : t.fault = s.fault := by rw [h.2]

theorem RespondOnly.fault {s t : State} (h : RespondOnly s t) : t.fault = s.fault := by rw [h.2]

/-- R159: of the requests, a CLEAR-FAULT alone opens its session with a change of the fault unit. -/
theorem openSession_fault {q : Request} (spares : ∀ counts, q ≠ .clearFault counts) (s : State) (x : Station)
    (tag : Byte) : (s.openSession x tag q).fault = s.fault := by
  unfold State.openSession
  refine (handResponse_only _).fault.trans ?_
  cases q with
  | clearFault counts => exact absurd rfl (spares counts)
  | releaseStation y =>
    dsimp only
    split <;> rfl
  | _ => rfl

theorem takeServiceRequest_fault {q : Request} (spares : ∀ counts, q ≠ .clearFault counts) (s : State) (x : Station)
    (tag : Byte) : (s.takeServiceRequest x tag q).fault = s.fault := by
  unfold State.takeServiceRequest
  split
  · exact openSession_fault spares s x tag
  · split
    · exact (openSession_fault spares _ x tag).trans (abandonSession_only s).fault
    · exact (handResponse_only _).fault

/-- The frame of a CLEAR-FAULT (R172). -/
def ClearsFaults (f : Frame) : Prop := ∃ x y tag counts, f = .svcReq x y tag (.clearFault counts)

section
variable {f : Frame} (spares : ¬ ClearsFaults f)
include spares

theorem serve_fault (s : State) (before : Roster) : (s.serve before f).fault = s.fault := by
  by_cases request : ∃ x y tag q, f = .svcReq x y tag q
  · obtain ⟨x, y, tag, q, rfl⟩ := request
    unfold State.serve
    dsimp only
    split
    · exact takeServiceRequest_fault (fun counts clears => spares ⟨x, y, tag, counts, by rw [clears]⟩) s x tag
    · rfl
  · exact (serve_only s before fun x y tag q h => request ⟨x, y, tag, q, h⟩).fault

/-! ### A committed frame at the blocks (R54, R55, R84, R96 to R112) -/

theorem takeLiveFrame_fault (s : State) : (s.takeLiveFrame f).fault = s.fault :=
  calc (s.takeLiveFrame f).fault
    _ = ((s.applyLiveFrame f).respond s.roster f).fault := serve_fault spares _ s.roster
    _ = (s.applyLiveFrame f).fault := (respond_only _ s.roster f).fault
    _ = s.fault := by rw [applyLiveFrame_eq]

theorem deliverLive_keepsRecord (s : State) (own : Bool) : KeepsRecord s (s.deliverLive f own) := by
  have stray : ∀ x, KeepsRecord s (s.noteStray x) := fun x =>
    .ite ((detach_keepsRecord (s.strayNoted x) _).after rfl) (.of_fault rfl)
  unfold State.deliverLive
  split
  · split
    · exact .refl s
    · split
      · exact stray _
      · exact stray _
      all_goals exact .refl s
  · exact .ite (detach_keepsRecord s _) (.of_fault (takeLiveFrame_fault spares s))

end

theorem checkIsolation_keepsRecord (s : State) (before : Roster) : KeepsRecord s (s.checkIsolation before) :=
  .ifActs (detach_keepsRecord s _)

theorem noteActivity_fault (s : State) : s.noteActivity.fault = s.fault := by rw [noteActivity_eq]

theorem applyFounding_fault (s : State) (f : Frame) : (s.applyFounding f).fault = s.fault := by
  unfold State.applyFounding
  split
  · rfl
  · split <;> rfl

theorem deliverListening_fault (s : State) (f : Frame) (own : Bool) :
    (s.deliverListening f own).fault = s.fault := by
  have founding : ∀ (c : Prop) [Decidable c] (u : State), (if c then u.applyFounding f else u).fault = u.fault :=
    fun c _ u => by
      split
      · exact applyFounding_fault u f
      · rfl
  have candidate : (s.noteCandidate f).fault = s.fault := by
    unfold State.noteCandidate
    split <;> rfl
  unfold State.deliverListening
  dsimp only
  split
  · split
    · exact founding _ s
    · exact founding _ s
  · exact (founding _ _).trans candidate

theorem endListening_keepsRecord (s : State) : KeepsRecord s s.endListening := by
  unfold State.endListening
  dsimp only
  split
  · exact .of_fault rfl
  · exact .ite ((returnToListen_keepsRecord _).after rfl) (.of_fault rfl)

theorem nextCandidate_keepsRecord (s : State) : KeepsRecord s s.nextCandidate := by
  unfold State.nextCandidate
  split
  · exact .of_fault rfl
  · exact detach_keepsRecord s none

theorem completeFromFounding_keepsRecord (s : State) : KeepsRecord s s.completeFromFounding :=
  .ite ((detach_keepsRecord s.giveUpFounding none).after rfl)
    (.ite ((detach_keepsRecord _ none).after rfl) (.of_fault rfl))

theorem answerExpires_keepsRecord (s : State) : KeepsRecord s s.answerExpires :=
  .ite (completeFromFounding_keepsRecord s) (nextCandidate_keepsRecord s)

theorem takePart_fault (s : State) (x : Station) (k : Nat) (body : PartBody) :
    (s.takePart x k body).fault = s.fault := by
  unfold State.takePart
  split
  · rfl
  · dsimp only
    split <;> split <;> rfl

theorem deliverJoiner_keepsRecord (s : State) (f : Frame) (own : Bool) : KeepsRecord s (s.deliverJoiner f own) := by
  have busy : ∀ x, KeepsRecord s (s.takeBusy x) := fun x => .ifActs (nextCandidate_keepsRecord s)
  have backlog : ∀ f, KeepsRecord s (s.keepInBacklog f) := fun f => .ite (detach_keepsRecord s none) (.of_fault rfl)
  unfold State.deliverJoiner
  split
  · split
    · exact .of_fault rfl
    · exact .refl s
  · split
    · exact detach_keepsRecord s _
    · split
      · exact .ifActs (.of_fault (takePart_fault s _ _ _))
      · exact .ifActs (busy _)
      · exact .ifActs (backlog _)

/-- R54, R55: a committed frame at the blocks, by the lifecycle. -/
theorem deliver_keepsRecord {f : Frame} (spares : ¬ ClearsFaults f) (s : State) (own : Bool) :
    KeepsRecord s (s.deliver f own) := by
  have live : ∀ own, KeepsRecord s (s.deliverLive f own) := deliverLive_keepsRecord spares s
  unfold State.deliver
  split
  · exact .of_fault (deliverListening_fault s f own)
  · split
    · split
      · exact (live true).trans ((someTasks_keepsRecord _).trans (.of_fault rfl))
      · exact live own
    · exact deliverJoiner_keepsRecord s f own
  · exact live own
  all_goals exact .refl s

/-! ### The close of a check slot (R40, R43, R52 to R58, R77, R174) -/

theorem settleCommitted_keepsRecord (s : State) (fl : Flight) (wasLost : Bool) :
    KeepsRecord s (s.settleCommitted fl wasLost) := by
  by_cases restart : fl.origin = .sessionPart true
  · rw [show s.settleCommitted fl wasLost = s.outcomeTaken.restartAfter from if_pos restart]
    exact (restartAfter_keepsRecord _).after rfl
  · rw [settleCommitted_only restart]
    exact .of_fault rfl

theorem ownCommitted_keepsRecord (s : State) {fl : Flight} (spares : ¬ ClearsFaults fl.frame) :
    KeepsRecord s (s.frameEnds.ownCommitted fl) := by
  have delivered : KeepsRecord s (s.ownSlotClosed.deliver fl.frame true) :=
    (deliver_keepsRecord spares s.ownSlotClosed true).after rfl
  exact delivered.trans ((someTasks_keepsRecord _).trans
    ((settleCommitted_keepsRecord _ fl _).trans (checkIsolation_keepsRecord _ _)))

/-- R52, R57: the fourth veto in a row. -/
theorem ownVeto_keepsRecord (s : State) : KeepsRecord s s.ownVeto := .ite (.of_fault rfl) (detach_keepsRecord s _)

theorem vetoesCleared_fault (s : State) : s.vetoesCleared.fault = s.fault := by
  unfold State.vetoesCleared
  split <;> rfl

/-- R40: what a station takes of another sender's frame is the frame it has received, which need not be the one sent. -/
theorem peerCommitted_keepsRecord {s : State} {f : Frame}
    (spares : ∀ g, s.received? f = some (.ok g) → ¬ ClearsFaults g) : KeepsRecord s (s.peerCommitted f) := by
  have ended : s.frameEnds.endPacing.noteActivity.fault = s.fault := noteActivity_fault _
  unfold State.peerCommitted
  split
  next => exact .of_fault (noteActivity_fault _)
  next =>
    have vetoed := (ownVeto_keepsRecord s.frameEnds.endPacing.noteActivity).after ended
    exact .ite vetoed (.of_fault ended)
  next g received =>
    have heard : s.frameEnds.endPacing.noteActivity.vetoesCleared.fault = s.fault :=
      (vetoesCleared_fault _).trans ended
    exact .ite ((toLinkFault_keepsRecord _ _).after heard)
      (((deliver_keepsRecord (spares g received) _ false).trans (checkIsolation_keepsRecord _ _)).after heard)

/-- R53: the frame in flight that a command commits is the command's own. -/
theorem flownAs?_frame {c : CommitUnit} {f : Frame} {fl : Flight} (h : c.flownAs? f = some fl) : fl.frame = f := by
  unfold CommitUnit.flownAs? at h
  split at h
  · split at h
    · next same =>
      cases h
      exact same
    · cases h
  · cases h

theorem commitFrame_keepsRecord {s : State} {f : Frame} (sent : ¬ ClearsFaults f)
    (received : ∀ g, s.received? f = some (.ok g) → ¬ ClearsFaults g) : KeepsRecord s (s.commitFrame f) := by
  unfold State.commitFrame
  split
  · exact .refl s
  · split
    · exact .of_fault rfl
    · split
      next fl own => exact ownCommitted_keepsRecord s (by rwa [flownAs?_frame own])
      next => exact peerCommitted_keepsRecord received

theorem abortFlight_keepsRecord (s : State) : KeepsRecord s s.abortFlight :=
  .ite (.of_fault rfl) ((detach_keepsRecord s.settleFailed _).after rfl)

theorem vetoSlot_keepsRecord (s : State) (cells : List Waveform) : KeepsRecord s (s.vetoSlot cells) := by
  have ended : s.frameEnds.endPacing.noteActivity.fault = s.fault := noteActivity_fault _
  unfold State.vetoSlot
  refine .ite (.refl s) (.ite (.of_fault rfl) (.ite ((abortFlight_keepsRecord s.frameEnds).after rfl) ?_))
  refine .ite (.of_fault ended) ?_
  split
  · exact .of_fault ended
  · exact .of_fault ((vetoesCleared_fault _).trans ended)
  · exact (ownVeto_keepsRecord _).after ended

/-! ### The medium, the loader and the field lines (R46 to R51, R62, R146, R153, R177 to R182) -/

theorem startFrame_fault (s : State) : s.startFrame.fault = s.fault := by
  unfold State.startFrame
  split
  · split <;> rfl
  · rfl

theorem senderActs_keepsRecord (s : State) (standing : Option SenderStanding) :
    KeepsRecord s (s.senderActs standing) := by
  unfold State.senderActs
  split
  · exact .of_fault rfl
  · exact abortFlight_keepsRecord s
  · exact .refl s
  · exact .refl s

theorem putInput_fault (s : State) (n : Nat) (i j : FieldInput) : (s.putInput n i j).fault = s.fault := by
  unfold State.putInput
  dsimp only
  split <;> rfl

theorem loadFails_keepsRecord (s : State) (failure : LoadFailure) : KeepsRecord s (s.loadFails failure) :=
  report_keepsRecord s _ _

theorem handover_keepsRecord (s : State) (c : StationSetup) : KeepsRecord s (s.handover c) := by
  have inputs : ∀ u : State, KeepsRecord u u.startInputs := fun u => by
    refine .foldl (fun s n => ?_) _ u
    split
    · exact .of_fault (putInput_fault _ _ _ _)
    · exact .refl s
  exact (inputs _).after rfl

theorem takeTransfer_keepsRecord (s : State) (answer : Option (List Byte)) : KeepsRecord s (s.takeTransfer answer) := by
  unfold State.takeTransfer
  split
  · exact .refl s
  · split
    · unfold State.takeHeader
      split
      · exact .of_fault rfl
      · exact loadFails_keepsRecord s _
    · exact loadFails_keepsRecord s _
  · split
    · unfold State.takeBlock
      split
      · exact handover_keepsRecord s _
      · exact loadFails_keepsRecord s _
    · exact loadFails_keepsRecord s _

theorem addLoss_fault (s : State) (x : Station) : (s.addLoss x).fault = s.fault := by
  unfold State.addLoss
  split <;> rfl

theorem inputLine_fault (s : State) (n : Nat) (level : Bool) : (s.inputLine n level).fault = s.fault := by
  unfold State.inputLine
  split
  · split <;> exact putInput_fault _ _ _ _
  · rfl

theorem filterExpires_fault (s : State) (n : Nat) : (s.filterExpires n).fault = s.fault := by
  unfold State.filterExpires
  split
  · exact putInput_fault _ _ _ _
  · rfl

/-- R153: OUTPUT-READBACK is reported, and the indication may follow. -/
theorem latchOutput_keepsRecord (s : State) (n : Nat) : KeepsRecord s (s.latchOutput n) := by
  unfold State.latchOutput
  extract_lets wasEmpty latched reported
  have report : KeepsRecord s reported := (report_keepsRecord latched _ _).after rfl
  exact .ite (report.trans (latchedIndication_keepsRecord _ true)) report

/-! ### Commands and steps -/

/-- A command that clears no fault record: no reset of every block, and neither the frame that it names nor the one
that the station has received in its place is a CLEAR-FAULT. -/
structure SparesRecord (c : Instr) (s : State) : Prop where
  powered  : c ≠ .powerOnReset
  released : c ≠ .resetLineAssertion
  sent     : ∀ f, c.frame? = some f → ¬ ClearsFaults f
  received : ∀ f g, c.frame? = some f → s.received? f = some (.ok g) → ¬ ClearsFaults g

theorem answer_keepsRecord {s u t : State} (eq : u.answer = .next t) (h : KeepsRecord s u) : KeepsRecord s t := by
  cases eq
  exact h.trans (finish_keepsRecord u)

theorem exec_keepsRecord {c : Instr} {s t : State} (spares : SparesRecord c s) (eq : exec c s = .next t) :
    KeepsRecord s t := by
  cases frame : c.frame? with
  | some f =>
    rw [exec_frame frame] at eq
    exact answer_keepsRecord eq (commitFrame_keepsRecord (spares.sent f frame) fun g => spares.received f g frame)
  | none =>
    cases c with
    | powerOnReset => exact absurd rfl spares.powered
    | resetLineAssertion => exact absurd rfl spares.released
    | resetRelease straps => exact answer_keepsRecord eq (.ifActs ((readStraps_keepsRecord _).after rfl))
    | configurationRead answer =>
      exact answer_keepsRecord eq (.ite (.refl s) (takeTransfer_keepsRecord s answer))
    | idleReached => exact answer_keepsRecord eq (.ite (.refl s) (.of_fault rfl))
    | frameStart => exact answer_keepsRecord eq (.of_fault (startFrame_fault s))
    | arbitrationLost => exact answer_keepsRecord eq (.ifActs (.of_fault rfl))
    | abort => exact answer_keepsRecord eq (.ifActs (abortFlight_keepsRecord s))
    | frameIncomplete => exact answer_keepsRecord eq (.ite (.refl s) (.of_fault (noteActivity_fault s.frameStops)))
    | veto cells => exact answer_keepsRecord eq (vetoSlot_keepsRecord s cells)
    | listenPeriodExpiry => exact answer_keepsRecord eq (.ifActs (endListening_keepsRecord s))
    | answerTimerExpiry => exact answer_keepsRecord eq (.ifActs (answerExpires_keepsRecord s))
    | partGapExpiry => exact answer_keepsRecord eq (.ifActs (nextCandidate_keepsRecord s))
    | rejoinHoldoffExpiry => exact answer_keepsRecord eq (.ifActs (returnToListen_keepsRecord s))
    | straySetExpiry x => exact answer_keepsRecord eq (.ifActs (.of_fault rfl))
    | silenceLimit x =>
      have lost : ∀ r, (State.addLoss { s with roster := r } x).fault = s.fault := fun r => addLoss_fault _ x
      exact answer_keepsRecord eq (.ifActs ((checkIsolation_keepsRecord _ s.roster).after (lost _)))
    | entryDeadline x => exact answer_keepsRecord eq (.ifActs (.of_fault (addLoss_fault _ x)))
    | rollcallDue => exact answer_keepsRecord eq (.ifActs (.of_fault rfl))
    | pacingGap => exact answer_keepsRecord eq (.ifActs (.of_fault rfl))
    | pulseWindowExpiry p => exact answer_keepsRecord eq (.ifActs (.of_fault rfl))
    | unitExpiry n => exact answer_keepsRecord eq (.of_fault rfl)
    | inputLineChange n level => exact answer_keepsRecord eq (.of_fault (inputLine_fault s _ level))
    | filterRunExpiry n => exact answer_keepsRecord eq (.of_fault (filterExpires_fault s _))
    | readbackLineChange n level => exact answer_keepsRecord eq (.of_fault rfl)
    | settleTimerExpiry n => exact answer_keepsRecord eq (.of_fault rfl)
    | mismatchTimerExpiry n =>
      refine answer_keepsRecord eq ?_
      split
      · exact .ifActs (latchOutput_keepsRecord s _)
      · exact .refl s
    | activity a =>
      have seen := (senderActs_keepsRecord _ (s.commit.standingAt? s.cellTime a)).after (noteActivity_fault
        { s with commit := s.commit.observe s.cellTime s.lifecycle.onMedium a })
      exact answer_keepsRecord eq (.ite (.refl s) seen)
    | _ => cases frame

theorem queueInAnyOrder_fault : ∀ (n : Nat) (due : List Instr) (s : State), (queueInAnyOrder n due s).fault = s.fault
  | 0, _, _ => rfl
  | n + 1, due, s => by
    have drawn : (s.draw due.length).2.fault = s.fault := by
      unfold State.draw
      split <;> rfl
    unfold queueInAnyOrder
    dsimp only
    split
    · exact (queueInAnyOrder_fault n _ _).trans drawn
    · exact drawn

theorem millisecond_fault (s : State) : s.millisecond.fault = s.fault := by
  unfold State.millisecond
  split
  · rfl
  · exact queueInAnyOrder_fault _ _ _

/-- R157: the first-fault record outlives every step whose command clears none. -/
theorem step_keepsRecord {s t : State} (spares : ∀ c rest, s.pending = c :: rest → SparesRecord c s)
    (h : step s = .next t) : KeepsRecord s t := by
  unfold step at h
  split at h
  · next c rest pending =>
    obtain ⟨powered, released, sent, received⟩ := spares c rest pending
    exact (exec_keepsRecord (s := { s with pending := rest }) ⟨powered, released, sent, received⟩ h).after rfl
  · cases h
    exact .of_fault (millisecond_fault s)

/-- R36, R172: the one command whose frame is a CLEAR-FAULT. -/
theorem clearFault_of_frame {c : Instr} {f : Frame} (h : c.frame? = some f) (clears : ClearsFaults f) :
    ∃ x y tag counts, c = .clearFault x y tag counts := by
  obtain ⟨x, y, tag, counts, rfl⟩ := clears
  refine ⟨x, y, tag, counts, ?_⟩
  cases c <;> simp_all [Instr.frame?]

/-- R157: at a station that receives every frame as it was sent, the record outlives every step but a CLEAR-FAULT, a
power-on reset and a RESET line assertion. -/
theorem step_keepsRecord_of_received {s t : State}
    (asSent : ∀ c rest f g, s.pending = c :: rest → c.frame? = some f → s.received? f = some (.ok g) → g = f)
    (spares : ∀ c rest, s.pending = c :: rest →
      c ≠ .powerOnReset ∧ c ≠ .resetLineAssertion ∧ ∀ x y tag counts, c ≠ .clearFault x y tag counts)
    (h : step s = .next t) : KeepsRecord s t := by
  refine step_keepsRecord (fun c rest pending => ?_) h
  obtain ⟨powered, released, others⟩ := spares c rest pending
  have sent : ∀ f, c.frame? = some f → ¬ ClearsFaults f := fun f frame clears => by
    obtain ⟨x, y, tag, counts, same⟩ := clearFault_of_frame frame clears
    exact others x y tag counts same
  exact ⟨powered, released, sent, fun f g frame received =>
    asSent c rest f g pending frame received ▸ sent f frame⟩

/-! ### A frame that is received as another one (R40, log 15) -/

/-- Station 3, ACTIVE with a fault on record, has recorded the cells of a CLEAR-FAULT that station 1 addresses to it. -/
def clearFaultHeard : State :=
  { State.reset with
    lifecycle := .active
    loader := { Loader.reset with number := 3, held := false }
    commit := { CommitUnit.reset with reception := some ((encodeFrame (.svcReq 1 3 0 (.clearFault false))).map .bit) }
    image := { ImageBlock.reset with standing := .complete }
    roster := (Roster.initial.update 1 fun _ => ⟨.active, 50, some 0, none⟩).update 3
      fun _ => ⟨.active, 50, none, none⟩
    fault := { FaultUnit.reset with record := some ⟨.namedLost, none, 0, .active⟩ } }

/-- The verdict on a ROLLCALL is by the cells that were recorded. -/
theorem clearFaultHeard_received :
    clearFaultHeard.received? (.rollcall 1 50) = some (.ok (.svcReq 1 3 0 (.clearFault false))) := by decide +kernel

/-- So the slot of the ROLLCALL closes as that of the CLEAR-FAULT. -/
theorem clearFaultHeard_clears : (clearFaultHeard.commitFrame (.rollcall 1 50)).finish.fault.record = none := by
  decide +kernel

/-- Refutes O59: the command is a ROLLCALL, but the cells that the station has recorded are those of a CLEAR-FAULT,
which it takes in its place. -/
theorem not_firstFaultRecordIsKept : ¬ Obligations.FirstFaultRecordIsKept := by
  intro h
  have steps : step { clearFaultHeard with pending := [.rollcall 1 50] } =
      .next (clearFaultHeard.commitFrame (.rollcall 1 50)).finish :=
    exec_frame (c := .rollcall 1 50) rfl clearFaultHeard
  have spares : ∀ c rest, [Instr.rollcall 1 50] = c :: rest →
      c ≠ .powerOnReset ∧ c ≠ .resetLineAssertion ∧ ∀ x y tag counts, c ≠ .clearFault x y tag counts := by
    rintro c rest ⟨⟩
    exact ⟨nofun, nofun, nofun⟩
  have kept := h _ _ ⟨.namedLost, none, 0, .active⟩ rfl spares steps
  rw [clearFaultHeard_clears] at kept
  cases kept

end Sys2Proof.Machine


/-! SUPPORT. Bytes, words and packed levels of a response payload as the numbers that they spell (R175). -/

namespace Sys2Proof.Machine

/-! ### Bytes and words of a payload -/

/-- R175: byte `n` of a payload, as a number. -/
def byteAt (l : List Byte) (n : Nat) : Nat := (l.getD n 0).toNat

/-- R175: the two-byte number from byte `n` on, most significant byte first. -/
def wordAt (l : List Byte) (n : Nat) : Nat := 256 * byteAt l n + byteAt l (n + 1)

theorem byteAt_of_getElem? {l : List Byte} {n : Nat} {b : Byte} (found : l[n]? = some b) : byteAt l n = b.toNat := by
  rw [byteAt, List.getD_eq_getElem?_getD, found, Option.getD_some]

/-- Bytes of a payload after a first piece. -/
theorem byteAt_append_right (a l : List Byte) (n : Nat) : byteAt (a ++ l) (a.length + n) = byteAt l n := by
  rw [byteAt, byteAt, List.getD_append_right _ _ _ _ (Nat.le_add_right ..), Nat.add_sub_cancel_left]

theorem byteAt_append_left {a : List Byte} {n : Nat} (inside : n < a.length) (l : List Byte) :
    byteAt (a ++ l) n = byteAt a n := by
  rw [byteAt, byteAt, List.getD_append _ _ _ _ inside]

section
variable {α : Type} {f : α → List Byte} {w : Nat} (len : ∀ a, (f a).length = w)
include len

theorem length_flatMap_const (l : List α) : (l.flatMap f).length = w * l.length := by
  rw [List.length_flatMap, List.map_congr_left fun a _ => len a, List.map_const', List.sum_replicate, smul_eq_mul,
    Nat.mul_comm]

/-- Entries of `w` bytes each: byte `j` of entry `i`. -/
theorem byteAt_flatMap {j : Nat} (inside : j < w) {l : List α} : ∀ {i : Nat} {a : α}, l[i]? = some a →
    byteAt (l.flatMap f) (w * i + j) = byteAt (f a) j := by
  induction l with
  | nil => exact fun found => absurd found (by simp)
  | cons x l ih =>
    intro i a found
    cases i with
    | zero =>
      obtain rfl : x = a := by simpa using found
      rw [List.flatMap_cons, Nat.mul_zero, Nat.zero_add, byteAt_append_left (by rwa [len])]
    | succ i =>
      rw [List.flatMap_cons, Nat.mul_succ, show w * i + w + j = (f x).length + (w * i + j) by rw [len]; omega,
        byteAt_append_right]
      exact ih (by simpa using found)

/-- Entries of `w` bytes each: the two-byte number from byte `j` of entry `i` on. -/
theorem wordAt_flatMap {j : Nat} (inside : j + 1 < w) {l : List α} {i : Nat} {a : α} (found : l[i]? = some a) :
    wordAt (l.flatMap f) (w * i + j) = wordAt (f a) j := by
  rw [wordAt, wordAt, byteAt_flatMap len (Nat.lt_of_succ_lt inside) found, Nat.add_assoc, byteAt_flatMap len inside found]

end

/-! ### Multi-byte numbers -/

@[simp] theorem bigEndian_length : ∀ n v : Nat, (bigEndian n v).length = n
  | 0, _ => rfl
  | n + 1, v => congrArg (· + 1) (bigEndian_length n v)

/-- R175: byte `i` of a number of `n` bytes. -/
theorem byteAt_bigEndian (v : Nat) : ∀ {n i : Nat}, i < n → byteAt (bigEndian n v) i = v / 256 ^ (n - 1 - i) % 256
  | n + 1, 0, _ => BitVec.toNat_ofNat ..
  | n + 1, i + 1, inside => by
    rw [show n + 1 - 1 - (i + 1) = n - 1 - i by omega]
    exact byteAt_bigEndian v (Nat.lt_of_succ_lt_succ inside)

theorem wordAt_bigEndian_two (v : Nat) : wordAt (bigEndian 2 v) 0 = v % 65536 := by
  rw [wordAt, byteAt_bigEndian v (by decide), byteAt_bigEndian v (by decide)]
  omega

theorem wordAt_bigEndian_toNat (v : Word16) : wordAt (bigEndian 2 v.toNat) 0 = v.toNat := by
  rw [wordAt_bigEndian_two, Nat.mod_eq_of_lt v.isLt]

theorem bytes_bigEndian_three (v : Nat) :
    256 * wordAt (bigEndian 3 v) 0 + byteAt (bigEndian 3 v) 2 = v % 16777216 := by
  rw [wordAt, byteAt_bigEndian v (by decide), byteAt_bigEndian v (by decide), byteAt_bigEndian v (by decide)]
  omega

theorem words_bigEndian_four (v : Nat) :
    65536 * wordAt (bigEndian 4 v) 0 + wordAt (bigEndian 4 v) 2 = v % 4294967296 := by
  rw [wordAt, wordAt, byteAt_bigEndian v (by decide), byteAt_bigEndian v (by decide), byteAt_bigEndian v (by decide),
    byteAt_bigEndian v (by decide)]
  omega

/-! ### Bits without content (log 6) -/

/-- Outside the mask a byte keeps its bits. -/
theorem fillUnstated_testBit {mask : Byte} {i : Nat} (outside : mask.getLsbD i = false) (b : Byte) (free : Word16) :
    (fillUnstated b mask free).toNat.testBit i = b.toNat.testBit i := by
  rw [BitVec.testBit_toNat, BitVec.testBit_toNat, fillUnstated, BitVec.getLsbD_or, BitVec.getLsbD_and,
    BitVec.getLsbD_and, BitVec.getLsbD_not, outside]
  simpa using BitVec.lt_of_getLsbD

/-- Bits from `k` up keep their content where the mask lies below them. -/
theorem fillUnstated_div {mask : Byte} {k : Nat} (below : mask.toNat < 2 ^ k) (b : Byte) (free : Word16) :
    (fillUnstated b mask free).toNat / 2 ^ k = b.toNat / 2 ^ k := by
  refine Nat.eq_of_testBit_eq fun j => ?_
  rw [Nat.testBit_div_two_pow, Nat.testBit_div_two_pow]
  refine fillUnstated_testBit ?_ b free
  rw [← BitVec.testBit_toNat]
  exact Nat.testBit_lt_two_pow (below.trans_le (Nat.pow_le_pow_right (by decide) (Nat.le_add_left ..)))

/-- The low `k` bits keep their content where the mask lies above them. -/
theorem fillUnstated_mod {mask : Byte} {k : Nat} (above : mask.toNat % 2 ^ k = 0) (b : Byte) (free : Word16) :
    (fillUnstated b mask free).toNat % 2 ^ k = b.toNat % 2 ^ k := by
  refine Nat.eq_of_testBit_eq fun j => ?_
  rw [Nat.testBit_mod_two_pow, Nat.testBit_mod_two_pow]
  by_cases low : j < k
  · have outside : mask.toNat.testBit j = false := by
      rw [show mask.toNat.testBit j = (mask.toNat % 2 ^ k).testBit j by simp [Nat.testBit_mod_two_pow, low], above,
        Nat.zero_testBit]
    rw [fillUnstated_testBit (by rwa [← BitVec.testBit_toNat])]
  · simp [low]

/-! ### Levels as bits -/

theorem packLow_lt : ∀ bits : List Bool, packLow bits < 2 ^ bits.length
  | [] => Nat.one_pos
  | b :: bits => by
    have rest := packLow_lt bits
    have bit := b.toNat_le
    rw [packLow, List.length_cons, Nat.pow_succ]
    omega

/-- R175: the first level in bit 0. -/
theorem packLow_testBit : ∀ {bits : List Bool} {n : Nat} {b : Bool}, bits[n]? = some b → (packLow bits).testBit n = b
  | c :: bits, 0, b, found => by
    obtain rfl : c = b := by simpa using found
    cases c <;> simp [packLow, Nat.testBit_zero, Nat.add_mod]
  | c :: bits, n + 1, b, found => by
    have bit := c.toNat_lt
    rw [packLow, Nat.testBit_succ, show (c.toNat + 2 * packLow bits) / 2 = packLow bits by omega]
    exact packLow_testBit (by simpa using found)

/-- Levels that fit a number of `2 ^ w` are found in its bits. -/
theorem packLow_mod_testBit {bits : List Bool} {w n : Nat} {b : Bool} (fits : bits.length ≤ w)
    (found : bits[n]? = some b) : (packLow bits % 2 ^ w).testBit n = b := by
  rw [Nat.mod_eq_of_lt ((packLow_lt bits).trans_le (Nat.pow_le_pow_right (by decide) fits)), packLow_testBit found]

/-- R26, R175: the first of `bits` is the most significant. -/
theorem packHigh_testBit {bits : List Bool} {i : Nat} {b : Bool} (found : bits[i]? = some b) :
    (packHigh bits).testBit (bits.length - 1 - i) = b := by
  have spelt : fieldBits bits.length (packHigh bits) = bits :=
    bitsValue_injective (fieldBits_length ..) (bitsValue_fieldBits (bitsValue_lt bits))
  have inside := (List.getElem?_eq_some_iff.mp found).1
  rw [← spelt, fieldBits_eq_map] at found
  simpa [inside] using found

/-! ### Gate states, two bits each -/

/-- Gate states as one number, the first gate most significant. -/
def packGates (gates : List GateState) (above : Nat) : Nat := gates.foldl (fun acc g => 4 * acc + g.code) above

theorem GateState.code_lt (g : GateState) : g.code < 4 := by cases g <;> decide

theorem packGates_div : ∀ (gates : List GateState) (above : Nat), packGates gates above / 4 ^ gates.length = above
  | [], above => Nat.div_one above
  | g :: gates, above => by
    have small := g.code_lt
    have rest := packGates_div gates (4 * above + g.code)
    rw [List.length_cons, Nat.pow_succ, ← Nat.div_div_eq_div_mul, packGates, List.foldl_cons, ← packGates, rest]
    omega

theorem packGates_digit : ∀ {gates : List GateState} {n : Nat} {g : GateState} (above : Nat), gates[n]? = some g →
    packGates gates above / 4 ^ (gates.length - 1 - n) % 4 = g.code
  | x :: gates, 0, g, above, found => by
    obtain rfl : x = g := by simpa using found
    have small := x.code_lt
    have first := packGates_div gates (4 * above + x.code)
    rw [List.length_cons, Nat.add_sub_cancel, Nat.sub_zero, packGates, List.foldl_cons, ← packGates, first]
    omega
  | x :: gates, n + 1, g, above, found => by
    rw [List.length_cons, show gates.length + 1 - 1 - (n + 1) = gates.length - 1 - n by omega]
    exact packGates_digit (4 * above + x.code) (by simpa using found)

theorem packGates_lt (gates : List GateState) : packGates gates 0 < 4 ^ gates.length :=
  Nat.lt_of_div_eq_zero (Nat.pow_pos (by decide)) (packGates_div gates 0)

end Sys2Proof.Machine

/-! SUPPORT. The parts of READ-POINT, READ-ROSTER and READ-LOCAL byte by byte (R35, R170, R175). -/

namespace Sys2Proof.Machine

/-! ### READ-POINT -/

/-- The first byte of READ-POINT, with the class in bits 7 and 6 and the term-visible value in bit 0. -/
def pointHead (s : State) (p : Point) (cls : PointClass) : Byte :=
  fillUnstated (BitVec.ofNat 8 (cls.code * 64 + (s.image.termVisible p).toNat)) 0x3E#8 (Config.unstated s.freeIndex 0)

theorem PointClass.code_lt (cls : PointClass) : cls.code < 4 := by cases cls <;> decide

section
variable {s : State} {p : Nat}

theorem pointHead_class (cls : PointClass) : (pointHead s p cls).toNat / 64 = cls.code := by
  have small := cls.code_lt
  have bit := (s.image.termVisible p).toNat_lt
  refine (fillUnstated_div (k := 6) (by decide) _ _).trans ?_
  rw [BitVec.toNat_ofNat]
  omega

theorem pointHead_visible (cls : PointClass) :
    (pointHead s p cls).toNat % 2 = (s.image.termVisible p).toNat := by
  have bit := (s.image.termVisible p).toNat_lt
  refine (fillUnstated_mod (k := 1) (by decide) _ _).trans ?_
  rw [BitVec.toNat_ofNat]
  omega

theorem pointPayload_any (h : p < 128) : pointPayload s p =
    pointHead s p .any :: bigEndian 4 (packHigh (membershipBits (s.image.points.onSet p)) * 4) := by
  rw [pointPayload, pointClass?_any h]
  rfl

theorem pointPayload_all (low : 128 ≤ p) (h : p < 176) : pointPayload s p =
    pointHead s p .all :: BitVec.ofNat 8 (s.image.points.contributors p).length ::
      (s.image.points.contributors p).zipIdx.map fun e =>
        fillUnstated (BitVec.ofNat 8 (e.1.1 * 8 + entryCode e.1.2)) 0x04#8 (Config.unstated s.freeIndex (e.2 + 1)) := by
  rw [pointPayload, pointClass?_all low h]
  rfl

theorem pointPayload_held (low : 176 ≤ p) (h : p < 224) : pointPayload s p =
    [pointHead s p .held, BitVec.ofNat 8 ((s.image.points.heldRecord p).changer.getD 0),
      (s.image.points.heldRecord p).changes] := by
  rw [pointPayload, pointClass?_held low h]
  rfl

theorem pointPayload_count (low : 224 ≤ p) (h : p < 256) : pointPayload s p =
    pointHead s p .count :: (bigEndian 2 (s.image.points.countRecord p).count.toNat ++
      [BitVec.ofNat 8 ((s.image.points.countRecord p).pulser.getD 0)]) := by
  rw [pointPayload, pointClass?_count low h]
  rfl

/-- R175: READ-POINT begins with the head of the point's class. -/
theorem pointPayload_head (h : p < 256) : ∃ cls, byteAt (pointPayload s p) 0 = (pointHead s p cls).toNat := by
  rcases Nat.lt_or_ge p 128 with any | low
  · exact ⟨.any, by rw [pointPayload_any any]; rfl⟩
  rcases Nat.lt_or_ge p 176 with all | low
  · exact ⟨.all, by rw [pointPayload_all low all]; rfl⟩
  rcases Nat.lt_or_ge p 224 with held | low
  · exact ⟨.held, by rw [pointPayload_held low held]; rfl⟩
  · exact ⟨.count, by rw [pointPayload_count low h]; rfl⟩

theorem pointPayload_visible (h : p < 256) :
    byteAt (pointPayload s p) 0 % 2 = (s.image.termVisible p).toNat := by
  obtain ⟨cls, head⟩ := pointPayload_head (s := s) h
  rw [head, pointHead_visible]

theorem membershipBits_length (set : OnSet) : (membershipBits set).length = 30 := by
  rw [membershipBits, List.length_map, List.length_range]

/-- R35: station `x` in the membership field of thirty bits, station 1 first. -/
theorem membershipBits_testBit {set : OnSet} {x : Nat} (low : 1 ≤ x) (high : x ≤ 30) :
    (packHigh (membershipBits set)).testBit (30 - x) = true ↔ x ∈ set := by
  have found : (membershipBits set)[x - 1]? = some (set.contains x) := by
    simp [membershipBits, show x - 1 < 30 by omega, Nat.sub_add_cancel low]
  have bit := packHigh_testBit found
  rw [membershipBits_length, show 30 - 1 - (x - 1) = 30 - x by omega] at bit
  rw [bit, List.contains_iff_mem]

/-- R175: an any-class point. -/
theorem pointPayload_any_carries (h : p < 128) :
    (pointPayload s p).length = 5 ∧ byteAt (pointPayload s p) 0 / 64 = 0 ∧ wordAt (pointPayload s p) 3 % 4 = 0 ∧
      ∀ x : Nat, 1 ≤ x → x ≤ 30 →
        ((65536 * wordAt (pointPayload s p) 1 + wordAt (pointPayload s p) 3).testBit (32 - x) = true ↔
          x ∈ s.image.points.onSet p) := by
  rw [pointPayload_any h]
  generalize members : packHigh (membershipBits (s.image.points.onSet p)) = m
  have small : m < 1073741824 := by
    have fits : packHigh (membershipBits (s.image.points.onSet p)) < _ := bitsValue_lt _
    rwa [members, membershipBits_length] at fits
  have words : 65536 * wordAt (pointHead s p .any :: bigEndian 4 (m * 4)) 1 +
      wordAt (pointHead s p .any :: bigEndian 4 (m * 4)) 3 = m * 4 :=
    (words_bigEndian_four (m * 4)).trans (by omega)
  refine ⟨rfl, pointHead_class .any, by omega, fun x low high => ?_⟩
  rw [words, show m * 4 = m * 2 ^ 2 from rfl, Nat.testBit_mul_two_pow, show 32 - x - 2 = 30 - x by omega, ← members,
    decide_eq_true (by omega), Bool.true_and, membershipBits_testBit low high]

theorem entryCode_lt (v : Entry) : entryCode v < 4 := by cases v <;> decide

/-- R175: the byte of one entry of a contributor map. -/
theorem entryByte_carries {y : Nat} (fits : y ≤ 30) (v : Entry) (free : Word16) :
    (fillUnstated (BitVec.ofNat 8 (y * 8 + entryCode v)) 0x04#8 free).toNat / 8 = y ∧
      (fillUnstated (BitVec.ofNat 8 (y * 8 + entryCode v)) 0x04#8 free).toNat % 4 = entryCode v := by
  have code := entryCode_lt v
  refine ⟨(fillUnstated_div (k := 3) (by decide) _ _).trans ?_, (fillUnstated_mod (k := 2) (by decide) _ _).trans ?_⟩
  all_goals
    rw [BitVec.toNat_ofNat]
    omega

/-- R175: an all-class point. -/
theorem pointPayload_all_carries (low : 128 ≤ p) (h : p < 176)
    (stations : ∀ e ∈ s.image.points.contributors p, e.1 ≤ 30) (few : (s.image.points.contributors p).length ≤ 30) :
    (pointPayload s p).length = 2 + (s.image.points.contributors p).length ∧ byteAt (pointPayload s p) 0 / 64 = 1 ∧
      byteAt (pointPayload s p) 1 = (s.image.points.contributors p).length ∧
      ∀ i e, (s.image.points.contributors p)[i]? = some e →
        byteAt (pointPayload s p) (2 + i) / 8 = e.1 ∧ byteAt (pointPayload s p) (2 + i) % 4 = entryCode e.2 := by
  rw [pointPayload_all low h]
  refine ⟨by simp only [List.length_cons, List.length_map, List.length_zipIdx]; omega, pointHead_class .all,
    (BitVec.toNat_ofNat ..).trans (Nat.mod_eq_of_lt (by omega)), fun i e found => ?_⟩
  rw [Nat.add_comm 2 i, byteAt_of_getElem? (b := fillUnstated (BitVec.ofNat 8 (e.1 * 8 + entryCode e.2)) 0x04#8
    (Config.unstated s.freeIndex (i + 1))) (by simp [found])]
  exact entryByte_carries (stations e (List.mem_of_getElem? found)) e.2 _

/-- R175: a held-class point. -/
theorem pointPayload_held_carries (low : 176 ≤ p) (h : p < 224) :
    (pointPayload s p).length = 3 ∧ byteAt (pointPayload s p) 0 / 64 = 2 ∧
      byteAt (pointPayload s p) 1 = (s.image.points.heldRecord p).changer.getD 0 % 256 ∧
      byteAt (pointPayload s p) 2 = (s.image.points.heldRecord p).changes.toNat := by
  rw [pointPayload_held low h]
  exact ⟨rfl, pointHead_class .held, BitVec.toNat_ofNat .., rfl⟩

/-- R175: a count-class point. -/
theorem pointPayload_count_carries (low : 224 ≤ p) (h : p < 256) :
    (pointPayload s p).length = 4 ∧ byteAt (pointPayload s p) 0 / 64 = 3 ∧
      wordAt (pointPayload s p) 1 = (s.image.points.countRecord p).count.toNat ∧
      byteAt (pointPayload s p) 3 = (s.image.points.countRecord p).pulser.getD 0 % 256 := by
  rw [pointPayload_count low h]
  exact ⟨rfl, pointHead_class .count, wordAt_bigEndian_toNat _, BitVec.toNat_ofNat ..⟩

end

/-! ### READ-ROSTER -/

theorem rosterCode_lt (v : RosterState) : rosterCode v < 256 := by cases v <;> decide

/-- The two bytes of the `i`-th station of part `k`. -/
def rosterPair (s : State) (k i : Nat) : List Byte :=
  [BitVec.ofNat 8 (rosterCode (s.roster.entry (15 * (k - 1) + i + 1)).state),
    BitVec.ofNat 8 (s.roster.entry (15 * (k - 1) + i + 1)).period]

theorem rosterPayload_eq (s : State) (k : Nat) : rosterPayload s k = (List.range 15).flatMap (rosterPair s k) := rfl

/-- R175: part `k` of the roster, two bytes a station. -/
theorem rosterPayload_carries (s : State) (k : Nat) :
    (rosterPayload s k).length = 30 ∧ ∀ i, i < 15 →
      byteAt (rosterPayload s k) (2 * i) = rosterCode (s.roster.entry (15 * (k - 1) + i + 1)).state ∧
      byteAt (rosterPayload s k) (2 * i + 1) = (s.roster.entry (15 * (k - 1) + i + 1)).period % 256 := by
  have len : ∀ i, (rosterPair s k i).length = 2 := fun _ => rfl
  rw [rosterPayload_eq]
  refine ⟨(length_flatMap_const len _).trans (by rw [List.length_range]), fun i inside => ?_⟩
  have found : (List.range 15)[i]? = some i := by simp [inside]
  have pair := fun j (h : j < 2) => byteAt_flatMap len h found
  exact ⟨(pair 0 (by decide)).trans ((BitVec.toNat_ofNat ..).trans (Nat.mod_eq_of_lt (rosterCode_lt _))),
    (pair 1 (by decide)).trans (BitVec.toNat_ofNat ..)⟩

/-! ### READ-LOCAL -/

/-- R175: an output level in its two bytes. -/
theorem outputBytes_testBit (s : State) (place : Nat) {levels : List Bool} (len : levels.length = 12) {n : Nat}
    {b : Bool} (found : levels[n]? = some b) : (wordAt (outputBytes s place levels) 0).testBit n = b := by
  have inside : n < 12 := len ▸ (List.getElem?_eq_some_iff.mp found).1
  have low : wordAt (outputBytes s place levels) 0 % 2 ^ 12 = packLow levels % 2 ^ 12 := by
    have high := fillUnstated_mod (mask := 0xF0#8) (k := 4) (by decide) (BitVec.ofNat 8 (packLow levels / 256))
      (Config.unstated s.freeIndex place)
    rw [BitVec.toNat_ofNat] at high
    have bytes : wordAt (outputBytes s place levels) 0 =
        256 * (fillUnstated (BitVec.ofNat 8 (packLow levels / 256)) 0xF0#8 (Config.unstated s.freeIndex place)).toNat +
          (BitVec.ofNat 8 (packLow levels / 1)).toNat := rfl
    rw [bytes, BitVec.toNat_ofNat]
    omega
  have bit := packLow_mod_testBit len.le found
  rwa [← low, Nat.testBit_mod_two_pow, decide_eq_true inside, Bool.true_and] at bit

/-- R175: the inputs, outputs, markers and gates of part 1. -/
theorem localPayload_one_carries (s : State) (inputs : s.field.inputs.length = 16)
    (outputs : s.field.outputs.length = 12) (markers : s.eval.src.markers.length = 32)
    (gates : s.eval.gates.length = 9) :
    (localPayload s 1).length = 17 ∧
      (∀ n i, s.field.inputs[n]? = some i → (wordAt (localPayload s 1) 0).testBit n = i.filtered) ∧
      (∀ n o, s.field.outputs[n]? = some o → (wordAt (localPayload s 1) 2).testBit n = o.commanded ∧
        (wordAt (localPayload s 1) 4).testBit n = o.driven ∧ (wordAt (localPayload s 1) 6).testBit n = o.readback ∧
        (wordAt (localPayload s 1) 8).testBit n = decide (o.phase = .latched)) ∧
      (∀ n v, s.eval.src.markers[n]? = some v →
        (65536 * wordAt (localPayload s 1) 10 + wordAt (localPayload s 1) 12).testBit n = v) ∧
      (∀ n g, s.eval.gates[n]? = some g →
        (256 * wordAt (localPayload s 1) 14 + byteAt (localPayload s 1) 16) / 4 ^ (11 - n) % 4 = g.code) ∧
      byteAt (localPayload s 1) 16 % 64 = 0 := by
  have inputWord : wordAt (localPayload s 1) 0 = packLow (s.field.inputs.map (·.filtered)) % 2 ^ 16 :=
    wordAt_bigEndian_two _
  have markerWords : 65536 * wordAt (localPayload s 1) 10 + wordAt (localPayload s 1) 12 =
      packLow s.eval.src.markers % 2 ^ 32 := words_bigEndian_four _
  have gateBytes : 256 * wordAt (localPayload s 1) 14 + byteAt (localPayload s 1) 16 =
      packGates s.eval.gates 0 * 64 % 16777216 := bytes_bigEndian_three _
  have gatesFit := packGates_lt s.eval.gates
  rw [gates, show 4 ^ 9 = 262144 from rfl] at gatesFit
  rw [Nat.mod_eq_of_lt (by omega)] at gateBytes
  have level : ∀ (f : FieldOutput → Bool) (place n : Nat) (o : FieldOutput), s.field.outputs[n]? = some o →
      (wordAt (outputBytes s place (s.field.outputs.map f)) 0).testBit n = f o := fun f place n o found =>
    outputBytes_testBit s place (by rw [List.length_map, outputs]) (by rw [List.getElem?_map, found]; rfl)
  refine ⟨rfl, fun n i found => ?_, fun n o found => ?_, fun n v found => ?_, fun n g found => ?_, by omega⟩
  · rw [inputWord]
    exact packLow_mod_testBit (by rw [List.length_map, inputs]) (by rw [List.getElem?_map, found]; rfl)
  · exact ⟨level (·.commanded) 0 n o found, level (·.driven) 1 n o found, level (·.readback) 2 n o found,
      level (fun o => o.phase = .latched) 3 n o found⟩
  · rw [markerWords]
    exact packLow_mod_testBit markers.le found
  · have inside : n < 9 := gates ▸ (List.getElem?_eq_some_iff.mp found).1
    have digit := packGates_digit 0 found
    rw [gates] at digit
    rw [gateBytes, show 11 - n = 9 - 1 - n + 3 by omega, Nat.pow_add,
      show (64 : Nat) = 4 ^ 3 from rfl, Nat.mul_div_mul_right _ _ (by decide), digit]

/-- R175: the timers of part 2. -/
theorem localPayload_two_carries (s : State) (timers : s.timers.timers.length = 16) :
    (localPayload s 2).length = 32 ∧ ∀ n t, s.timers.timers[n]? = some t → t.value < 32768 →
      wordAt (localPayload s 2) (2 * n) = t.done.toNat * 32768 + t.value := by
  have len : ∀ t : TimerState, (bigEndian 2 (t.done.toNat * 32768 + t.value)).length = 2 := fun _ => rfl
  refine ⟨(length_flatMap_const len _).trans (by rw [timers]), fun n t found fits => ?_⟩
  have bit := t.done.toNat_lt
  calc wordAt (localPayload s 2) (2 * n)
    _ = wordAt (bigEndian 2 (t.done.toNat * 32768 + t.value)) 0 := wordAt_flatMap len (j := 0) (by decide) found
    _ = (t.done.toNat * 32768 + t.value) % 65536 := wordAt_bigEndian_two _
    _ = t.done.toNat * 32768 + t.value := Nat.mod_eq_of_lt (by omega)

/-- R175: the counters of part 3. -/
theorem localPayload_three_carries (s : State) (counters : s.timers.counters.length = 8) :
    (localPayload s 3).length = 17 ∧ ∀ n t, s.timers.counters[n]? = some t →
      wordAt (localPayload s 3) (2 * n) = t.value % 65536 ∧ (byteAt (localPayload s 3) 16).testBit n = t.done := by
  have len : ∀ c : CounterState, (bigEndian 2 c.value).length = 2 := fun _ => rfl
  have values : (s.timers.counters.flatMap fun c => bigEndian 2 c.value).length = 16 :=
    (length_flatMap_const len _).trans (by rw [counters])
  have split : localPayload s 3 = (s.timers.counters.flatMap fun c => bigEndian 2 c.value) ++
    [BitVec.ofNat 8 (packLow (s.timers.counters.map (·.done)))] := rfl
  refine ⟨by rw [split, List.length_append, values]; rfl, fun n t found => ⟨?_, ?_⟩⟩
  · have inside : n < 8 := counters ▸ (List.getElem?_eq_some_iff.mp found).1
    rw [split, wordAt, byteAt_append_left (by omega), byteAt_append_left (by omega)]
    exact (wordAt_flatMap len (j := 0) (by decide) found).trans (wordAt_bigEndian_two _)
  · rw [split, show 16 = (s.timers.counters.flatMap fun c => bigEndian 2 c.value).length + 0 from values.symm,
      byteAt_append_right]
    refine (congrArg (Nat.testBit · n) (BitVec.toNat_ofNat ..)).trans ?_
    exact packLow_mod_testBit (by rw [List.length_map, counters]) (by rw [List.getElem?_map, found]; rfl)

end Sys2Proof.Machine

/-! SUPPORT. The parts of READ-FAULT and READ-CAPTURE byte by byte, and the parts of every session (R168, R170, R171,
R175). -/

namespace Sys2Proof.Machine

/-! ### READ-FAULT -/

theorem FaultKind.code_lt (k : FaultKind) : k.code < 16 := by cases k <;> decide

theorem Lifecycle.code_lt (l : Lifecycle) : l.code < 256 := by cases l <;> decide

/-- The first byte of READ-FAULT for a record that is present. -/
def faultHead (s : State) (r : FaultRecord) : Byte :=
  fillUnstated (BitVec.ofNat 8 (128 + r.subject.isSome.toNat * 64 + r.kind.code)) 0x30#8 (Config.unstated s.freeIndex 0)

section
variable {s : State} {r : FaultRecord}

/-- R175: bits 7, 6 and 3 to 0 of the first byte. -/
theorem faultHead_carries : (faultHead s r).toNat / 128 = 1 ∧
    (faultHead s r).toNat / 64 % 2 = r.subject.isSome.toNat ∧ (faultHead s r).toNat % 16 = r.kind.code := by
  have small := r.kind.code_lt
  have bit := r.subject.isSome.toNat_lt
  have top := fillUnstated_div (mask := 0x30#8) (k := 6) (by decide)
    (BitVec.ofNat 8 (128 + r.subject.isSome.toNat * 64 + r.kind.code)) (Config.unstated s.freeIndex 0)
  have low := fillUnstated_mod (mask := 0x30#8) (k := 4) (by decide)
    (BitVec.ofNat 8 (128 + r.subject.isSome.toNat * 64 + r.kind.code)) (Config.unstated s.freeIndex 0)
  rw [← faultHead, BitVec.toNat_ofNat] at top low
  omega

theorem subjectBytes_length (s : State) (subject : Option Subject) : (subjectBytes s subject).length = 2 := by
  rcases subject with _ | _ | _ | _ | _ <;> rfl

/-- R175: the subject bytes of a CONFIG-INVALID are the check code and the entry; those of the other kinds are zero and
the number of the subject. -/
theorem subjectBytes_carry (s : State) (subject : Option Subject) :
    (∀ code entry, subject = some (.config code entry) →
      byteAt (subjectBytes s subject) 0 = code % 256 ∧ byteAt (subjectBytes s subject) 1 = entry % 256) ∧
    ((∀ code entry, subject ≠ some (.config code entry)) → byteAt (subjectBytes s subject) 0 = 0) ∧
    (∀ n, (subject = some (.station n) ∨ subject = some (.output n) ∨ subject = some (.point n)) →
      byteAt (subjectBytes s subject) 1 = n % 256) := by
  refine ⟨?_, fun plain => ?_, ?_⟩
  · rintro code entry rfl
    exact ⟨BitVec.toNat_ofNat .., BitVec.toNat_ofNat ..⟩
  · rcases subject with _ | ⟨code, entry⟩ | _ | _ | _
    case some.config => exact absurd rfl (plain code entry)
    all_goals rfl
  · rintro n (rfl | rfl | rfl) <;> exact BitVec.toNat_ofNat ..

theorem faultPayload_absent (h : s.fault.record = none) :
    faultPayload s = [0, 0, 0, 0, 0, 0] ++ s.fault.counts.map fun n => BitVec.ofNat 8 n := by
  rw [faultPayload, h]

theorem faultPayload_present (h : s.fault.record = some r) : faultPayload s =
    faultHead s r :: (subjectBytes s r.subject ++ bigEndian 2 r.stamp.toNat ++ [BitVec.ofNat 8 r.lifecycle.code]) ++
      s.fault.counts.map fun n => BitVec.ofNat 8 n := by
  rw [faultPayload, h]
  rfl

/-- R175: six bytes stand before the counts. -/
theorem faultPayload_counts (s : State) : ∃ record : List Byte, record.length = 6 ∧
    faultPayload s = record ++ s.fault.counts.map fun n => BitVec.ofNat 8 n := by
  cases h : s.fault.record with
  | none => exact ⟨_, rfl, faultPayload_absent h⟩
  | some r => exact ⟨_, by simp [subjectBytes_length], faultPayload_present h⟩

theorem faultPayload_counts_carried (kinds : s.fault.counts.length = 10) : (faultPayload s).length = 16 ∧
    ∀ n v, s.fault.counts[n]? = some v → byteAt (faultPayload s) (6 + n) = v % 256 := by
  obtain ⟨record, six, eq⟩ := faultPayload_counts s
  rw [eq]
  refine ⟨by rw [List.length_append, List.length_map, six, kinds], fun n v found => ?_⟩
  rw [← six, byteAt_append_right, byteAt_of_getElem? (b := BitVec.ofNat 8 v) (by rw [List.getElem?_map, found]; rfl),
    BitVec.toNat_ofNat]

theorem faultPayload_absent_zero (h : s.fault.record = none) {n : Nat} (low : n < 6) :
    byteAt (faultPayload s) n = 0 := by
  rw [faultPayload_absent h, byteAt_append_left (by exact low)]
  interval_cases n <;> rfl

/-- R175: where the pieces of a record that is present stand. -/
theorem faultPayload_record_bytes (h : s.fault.record = some r) :
    byteAt (faultPayload s) 0 = (faultHead s r).toNat ∧
      byteAt (faultPayload s) 1 = byteAt (subjectBytes s r.subject) 0 ∧
      byteAt (faultPayload s) 2 = byteAt (subjectBytes s r.subject) 1 ∧
      wordAt (faultPayload s) 3 = r.stamp.toNat ∧ byteAt (faultPayload s) 5 = r.lifecycle.code := by
  obtain ⟨a, b, subject⟩ := List.length_eq_two.mp (subjectBytes_length s r.subject)
  rw [faultPayload_present h, subject]
  exact ⟨rfl, rfl, rfl, wordAt_bigEndian_toNat _,
    (BitVec.toNat_ofNat ..).trans (Nat.mod_eq_of_lt r.lifecycle.code_lt)⟩

/-- R175: the six bytes of a record that is present. -/
theorem faultPayload_record_carried (h : s.fault.record = some r) :
    byteAt (faultPayload s) 0 / 128 = 1 ∧ byteAt (faultPayload s) 0 / 64 % 2 = r.subject.isSome.toNat ∧
      byteAt (faultPayload s) 0 % 16 = r.kind.code ∧ wordAt (faultPayload s) 3 = r.stamp.toNat ∧
      byteAt (faultPayload s) 5 = r.lifecycle.code ∧
      (∀ code entry, r.subject = some (.config code entry) →
        byteAt (faultPayload s) 1 = code % 256 ∧ byteAt (faultPayload s) 2 = entry % 256) ∧
      ((∀ code entry, r.subject ≠ some (.config code entry)) → byteAt (faultPayload s) 1 = 0) ∧
      (∀ n, (r.subject = some (.station n) ∨ r.subject = some (.output n) ∨ r.subject = some (.point n)) →
        byteAt (faultPayload s) 2 = n % 256) := by
  obtain ⟨head, high, low, stamp, lifecycle⟩ := faultPayload_record_bytes h
  obtain ⟨present, named, kind⟩ := faultHead_carries (s := s) (r := r)
  rw [head, high, low]
  exact ⟨present, named, kind, stamp, lifecycle, subjectBytes_carry s r.subject⟩

end

/-! ### READ-CAPTURE (R171) -/

theorem CaptureMode.code_lt (m : CaptureMode) : m.code < 4 := by cases m <;> decide

/-- R171, R175: part 1. -/
theorem captureStatusPayload_carries (s : State) :
    (captureStatusPayload s).length = 9 ∧
      byteAt (captureStatusPayload s) 0 / 128 = s.capture.triggerIndex.isSome.toNat ∧
      byteAt (captureStatusPayload s) 0 % 4 = s.capture.mode.code ∧
      byteAt (captureStatusPayload s) 1 = s.capture.remaining % 256 ∧
      (∀ i, s.capture.triggerIndex = some i → wordAt (captureStatusPayload s) 2 = i.toNat) ∧
      (s.capture.ring = [] → wordAt (captureStatusPayload s) 4 = s.capture.nextIndex.toNat) ∧
      (∀ r rest, s.capture.ring = r :: rest → wordAt (captureStatusPayload s) 4 = r.index.toNat) ∧
      byteAt (captureStatusPayload s) 6 = s.capture.ring.length % 256 ∧
      wordAt (captureStatusPayload s) 7 = s.capture.nextIndex.toNat := by
  have small := s.capture.mode.code_lt
  have bit := s.capture.triggerIndex.isSome.toNat_lt
  refine ⟨rfl, (fillUnstated_div (k := 7) (by decide) _ _).trans ?_,
    (fillUnstated_mod (k := 2) (by decide) _ _).trans ?_, BitVec.toNat_ofNat .., fun i trigger => ?_, fun empty => ?_,
    fun r rest ring => ?_, BitVec.toNat_ofNat .., wordAt_bigEndian_toNat _⟩
  · rw [BitVec.toNat_ofNat]
    omega
  · rw [BitVec.toNat_ofNat]
    omega
  · rw [captureStatusPayload, trigger]
    exact wordAt_bigEndian_toNat i
  · rw [captureStatusPayload, empty]
    exact wordAt_bigEndian_toNat _
  · rw [captureStatusPayload, ring]
    exact wordAt_bigEndian_toNat _

theorem RecordKind.code_lt (k : RecordKind) : k.code < 8 := by cases k <;> decide

/-- R175: kind and station share a byte. -/
theorem kindByte_eq (k : RecordKind) {y : Nat} (fits : y < 32) :
    (BitVec.ofNat 8 (k.code * 32 + y)).toNat = 32 * k.code + y := by
  have small := k.code_lt
  rw [BitVec.toNat_ofNat]
  omega

/-- R175: the flags of a record, under a mask that leaves bits 7 and 6 their content, and bit 0 where a value is
present. -/
theorem recordFlags_carry (r : RecordBody) (free : Word16) :
    let flags := fillUnstated (BitVec.ofNat 8 ((r.point.isSome && r.value.isSome).toNat * 128 +
      r.count.isSome.toNat * 64 + (r.value.getD false).toNat)) (if r.value.isSome then 0x3E#8 else 0x3F#8) free
    flags.toNat / 128 = (r.point.isSome && r.value.isSome).toNat ∧ flags.toNat / 64 % 2 = r.count.isSome.toNat ∧
      ∀ v, r.value = some v → flags.toNat % 2 = v.toNat := by
  intro flags
  have present := (r.point.isSome && r.value.isSome).toNat_lt
  have counted := r.count.isSome.toNat_lt
  have value := (r.value.getD false).toNat_lt
  have top : flags.toNat / 2 ^ 6 = _ := fillUnstated_div (by split <;> decide) _ _
  rw [BitVec.toNat_ofNat] at top
  refine ⟨by omega, by omega, fun v given => ?_⟩
  have low : flags.toNat % 2 ^ 1 = _ := fillUnstated_mod (by simp [given]) _ _
  rw [BitVec.toNat_ofNat] at low
  rw [given, Option.getD_some] at low value
  omega

/-- R175: the ten bytes from byte `o` on are those of the record. -/
def CarriesRecord (l : List Byte) (o : Nat) (r : CaptureRecord) : Prop :=
  wordAt l o = r.index.toNat ∧ byteAt l (o + 2) = r.ordinal.toNat ∧ wordAt l (o + 3) = r.stamp.toNat ∧
    (r.body.station < 32 → byteAt l (o + 5) = 32 * r.body.kind.code + r.body.station) ∧
    byteAt l (o + 6) = r.body.point.getD 0 % 256 ∧
    byteAt l (o + 7) / 128 = (r.body.point.isSome && r.body.value.isSome).toNat ∧
    byteAt l (o + 7) / 64 % 2 = r.body.count.isSome.toNat ∧
    (∀ v, r.body.value = some v → byteAt l (o + 7) % 2 = v.toNat) ∧ wordAt l (o + 8) = (r.body.count.getD 0).toNat

theorem recordBytes_carries (s : State) (place : Nat) (r : CaptureRecord) :
    CarriesRecord (recordBytes s place r) 0 r := by
  obtain ⟨present, counted, value⟩ := recordFlags_carry r.body (Config.unstated s.freeIndex place)
  exact ⟨wordAt_bigEndian_toNat _, rfl, wordAt_bigEndian_toNat _, fun fits => kindByte_eq _ fits,
    BitVec.toNat_ofNat .., present, counted, value, wordAt_bigEndian_toNat _⟩

/-- Records of ten bytes each, one after another. -/
theorem recordsBytes_carry (s : State) (records : List CaptureRecord) :
    let l := records.zipIdx.flatMap fun e => recordBytes s e.2 e.1
    l.length = 10 * records.length ∧ ∀ i r, records[i]? = some r → CarriesRecord l (10 * i) r := by
  have len : ∀ e : CaptureRecord × Nat, (recordBytes s e.2 e.1).length = 10 := fun _ => rfl
  refine ⟨(length_flatMap_const len _).trans (by rw [List.length_zipIdx]), fun i r held => ?_⟩
  have found : records.zipIdx[i]? = some (r, i) := by rw [List.getElem?_zipIdx, held, Option.map_some, Nat.zero_add]
  have bytes := fun j (inside : j < 10) => byteAt_flatMap len inside found
  have words := fun j (inside : j + 1 < 10) => wordAt_flatMap len inside found
  have record := recordBytes_carries s i r
  unfold CarriesRecord at record ⊢
  rw [bytes 2 (by decide), words 3 (by decide), bytes 5 (by decide), bytes 6 (by decide), bytes 7 (by decide),
    words 8 (by decide)]
  exact ⟨(words 0 (by decide)).trans record.1, record.2⟩

/-- R171: the indices of part `k`, cut at the last index asked for. -/
theorem coveredIndices_eq (first : Word16) (count k : Nat) : coveredIndices first count k =
    (List.range (min 3 (count - 3 * (k - 2)))).map fun i => first + BitVec.ofNat 16 (3 * (k - 2) + i) := by
  rw [coveredIndices, List.filter_map, List.map_map, ← List.Ico.zero_bot (min 3 _),
    ← List.Ico.filter_lt, List.Ico.zero_bot]
  refine congrArg _ (List.filter_congr fun i _ => ?_)
  simp only [Function.comp_apply, decide_eq_decide]
  omega

/-- R171: an index is gone where no record holds it and it is none of the 48 that come next. -/
theorem gone_iff {c : CaptureUnit} {i : Word16} :
    c.gone i = true ↔ (∀ r ∈ c.ring, r.index ≠ i) ∧ 48 ≤ (i - c.nextIndex).toNat := by
  rw [CaptureUnit.gone, CaptureUnit.held?, CaptureUnit.unmade, Bool.and_eq_true, Option.isNone_iff_eq_none,
    List.find?_eq_none, Bool.not_eq_true', decide_eq_false_iff_not, Nat.not_lt]
  simp only [decide_eq_true_eq]
  rfl

section
variable {s : State} {first : Word16} {count k : Nat}

/-- R171: a record part that covers a gone index. -/
theorem capturePart_gone (h : ∃ i ∈ coveredIndices first count k, s.capture.gone i = true) :
    capturePart s first count k = (.gone, []) := if_pos (List.any_eq_true.mpr h)

/-- R171: a record part that covers none. -/
theorem capturePart_done (h : ¬ ∃ i ∈ coveredIndices first count k, s.capture.gone i = true) :
    capturePart s first count k = (.done,
      ((coveredIndices first count k).filterMap s.capture.held?).zipIdx.flatMap fun e => recordBytes s e.2 e.1) :=
  if_neg fun any => h (List.any_eq_true.mp any)

end

/-! ### The parts of a session -/

section
variable {s : State} {ss : Session} {k : Nat}

theorem responsePart_readPoint {p : Byte} (request : ss.request = .readPoint p) :
    responsePart s ss k = (.done, pointPayload s p.toNat) := by
  rw [responsePart, request]

theorem responsePart_readRoster (request : ss.request = .readRoster) :
    responsePart s ss k = (.done, rosterPayload s k) := by
  rw [responsePart, request]

theorem responsePart_readLocal (request : ss.request = .readLocal) :
    responsePart s ss k = (.done, localPayload s k) := by
  rw [responsePart, request]

theorem responsePart_readFault (request : ss.request = .readFault) :
    responsePart s ss k = (.done, faultPayload s) := by
  rw [responsePart, request]

theorem responsePart_readCapture {first : Word16} {count : Nat} (request : ss.request = .readCapture first count) :
    responsePart s ss k = if k = 1 then (.done, captureStatusPayload s) else capturePart s first count k := by
  rw [responsePart, request]

/-- R172 to R174: the one part of a command. -/
theorem responsePart_command (request : (∃ counts, ss.request = .clearFault counts) ∨ ss.request = .armCapture ∨
    (∃ y, ss.request = .releaseStation y) ∨ ss.request = .restart) : responsePart s ss k = (ss.answer, []) := by
  rcases request with ⟨counts, request⟩ | request | ⟨y, request⟩ | request <;> rw [responsePart, request]

end

/-- Settles O43, request by request: the part of a request is the payload of its block, and a record part of
READ-CAPTURE is split by whether an index that it covers is gone. -/
theorem responsePartsCarryTheirBlocks : Obligations.ResponsePartsCarryTheirBlocks := by
  intro s ss k
  dsimp only
  refine ⟨fun p request => ?_, fun request => ?_, fun request => ?_, fun request => ?_, fun first count request => ?_,
    responsePart_command⟩
  · rw [responsePart_readPoint request]
    exact ⟨rfl, pointPayload_visible p.isLt, pointPayload_any_carries, pointPayload_all_carries,
      pointPayload_held_carries, fun low => pointPayload_count_carries low p.isLt⟩
  · rw [responsePart_readRoster request]
    exact ⟨rfl, rosterPayload_carries s k⟩
  · rw [responsePart_readLocal request]
    refine ⟨rfl, ?_, ?_, ?_⟩
    · rintro rfl
      exact localPayload_one_carries s
    · rintro rfl
      exact localPayload_two_carries s
    · rintro rfl
      exact localPayload_three_carries s
  · rw [responsePart_readFault request]
    exact ⟨rfl, faultPayload_counts_carried, fun absent n low => faultPayload_absent_zero absent low,
      fun r record => faultPayload_record_carried record⟩
  · rw [responsePart_readCapture request]
    refine ⟨?_, fun later => ?_⟩
    · rintro rfl
      exact ⟨rfl, captureStatusPayload_carries s⟩
    · rw [if_neg (show ¬ k = 1 by omega)]
      simp only [← coveredIndices_eq, ← gone_iff]
      refine ⟨capturePart_gone, fun spared => ?_⟩
      rw [capturePart_done spared]
      exact ⟨rfl, recordsBytes_carry s _⟩

end Sys2Proof.Machine

/-! SUPPORT. The front of the queue, and the millisecond of an empty queue: every clock advances, and the expiries that
stand at their limits join the queue in some order (R13, R46, R60, R73, R85, R86, R96, R103, R104, R111, R114, R136,
R146, R152; logs 1, 8, 27). -/

namespace Sys2Proof.Machine

/-! ### The queue -/

theorem step_of_front {s : State} {c : Instr} {rest : List Instr} (front : s.pending = c :: rest) :
    step s = exec c { s with pending := rest } := by
  rw [step, front]

theorem step_of_empty {s : State} (empty : s.pending = []) : step s = .next s.millisecond := by
  rw [step, empty]

/-- Settles O1, by the first clause of a step. -/
theorem stepTakesFrontCommand : Obligations.StepTakesFrontCommand :=
  fun _ _ _ front => step_of_front front

/-- Log 27: the expiries that are due join the queue, each once, in an order that the draws decide. -/
theorem queueInAnyOrder_perm : ∀ (n : Nat) (due : List Instr) (s : State), due.length = n →
    ∃ (order : List Instr) (k : Nat),
      queueInAnyOrder n due s = { s with pending := s.pending ++ order, freeIndex := k } ∧ order.Perm due
  | 0, due, s, length => by
    obtain rfl := List.eq_nil_of_length_eq_zero length
    exact ⟨[], s.freeIndex, by rw [List.append_nil]; rfl, .refl _⟩
  | n + 1, due, s, length => by
    obtain ⟨i, j, drawn, low⟩ := draw_spec s due.length
    have inside : i < due.length := low (by omega)
    obtain ⟨order, k, queued, perm⟩ := queueInAnyOrder_perm n (due.eraseIdx i)
      { s with pending := s.pending ++ [due[i]], freeIndex := j } (by rw [List.length_eraseIdx_of_lt inside]; omega)
    refine ⟨due[i] :: order, k, ?_, (perm.cons _).trans (List.getElem_cons_eraseIdx_perm inside)⟩
    rw [queueInAnyOrder, drawn]
    dsimp only
    rw [List.getElem?_eq_getElem inside]
    dsimp only
    rw [queued, List.append_assoc]
    rfl

theorem millisecond_held {s : State} (held : s.loader.held = true) : s.millisecond = s := if_pos held

/-- Logs 1, 27: the millisecond of a station that is not held. -/
theorem millisecond_awake {s : State} (empty : s.pending = []) (awake : s.loader.held = false) :
    ∃ (order : List Instr) (k : Nat), s.millisecond = { s.advanceClocks with pending := order, freeIndex := k } ∧
      order.Perm (idleExpiry s.advanceClocks ++ linkExpiries s.advanceClocks ++ localExpiries s.advanceClocks) := by
  obtain ⟨order, k, queued, perm⟩ := queueInAnyOrder_perm _
    (idleExpiry s.advanceClocks ++ linkExpiries s.advanceClocks ++ localExpiries s.advanceClocks) s.advanceClocks rfl
  have none : s.advanceClocks.pending = [] := empty
  rw [none, List.nil_append] at queued
  exact ⟨order, k, (if_neg (by simp [awake])).trans queued, perm⟩

/-! ### The expiries that are due -/

section
variable {s : State} {c d : Instr}

theorem mem_dueAt {timer : Option Nat} {limit : Nat} : c ∈ dueAt timer limit d ↔ c = d ∧ timer = some limit := by
  unfold dueAt
  split <;> simp [*]

/-- R46. -/
theorem mem_idleExpiry : c ∈ idleExpiry s ↔
    c = .idleReached ∧ s.commit.reception = none ∧ s.commit.flight = none ∧ s.commit.idle < 10 := by
  have rests : (s.commit.reception = none && s.commit.flight = none && !s.commit.idleReached) = true ↔
      s.commit.reception = none ∧ s.commit.flight = none ∧ s.commit.idle < 10 := by
    have idle : s.commit.idleReached = true ↔ 10 ≤ s.commit.idle := decide_eq_true_iff
    rw [Bool.and_eq_true, Bool.and_eq_true, decide_eq_true_eq, decide_eq_true_eq, Bool.not_eq_true',
      ← Bool.not_eq_true, idle, Nat.not_le, and_assoc]
  rw [← rests, idleExpiry]
  split <;> simp [*]

/-- R111: the members of the stray set that have been there for their time. -/
theorem mem_strayExpiries {stray : List (Station × Nat)} {limit : Nat} :
    c ∈ stray.flatMap (fun e => dueAt (some e.2) limit (.straySetExpiry e.1)) ↔
      ∃ x, c = .straySetExpiry x ∧ (x, limit) ∈ stray := by
  simp only [List.mem_flatMap, mem_dueAt, Option.some.injEq]
  constructor
  · rintro ⟨⟨x, v⟩, mem, rfl, rfl⟩
    exact ⟨x, rfl, mem⟩
  · rintro ⟨x, rfl, mem⟩
    exact ⟨_, mem, rfl, rfl⟩

/-- R85, R86: the stations whose silence or entry deadline is over. -/
theorem mem_rosterExpiries {r : Roster} :
    c ∈ allStations.flatMap (fun t => dueAt (r.entry t).silence (r.entry t).silenceLimit (.silenceLimit t)
        ++ dueAt (r.entry t).deadline (r.entry t).deadlineLimit (.entryDeadline t)) ↔
      (∃ x, isStation x = true ∧ c = .silenceLimit x ∧ (r.entry x).silence = some (3 * (r.entry x).period + 1)) ∨
      ∃ x, isStation x = true ∧ c = .entryDeadline x ∧ (r.entry x).deadline = some (80 * (r.entry x).period + 1) := by
  simp only [List.mem_flatMap, mem_allStations, List.mem_append, mem_dueAt, and_or_left, exists_or]
  rfl

/-- R73: the roll-call timer of a station that is ACTIVE. -/
theorem mem_rollcallExpiry {life : Lifecycle} {timer : Option Nat} {limit : Nat} :
    (c ∈ if life = .active then dueAt timer limit .rollcallDue else []) ↔
      c = .rollcallDue ∧ life = .active ∧ timer = some limit := by
  split <;> simp [mem_dueAt, *]

/-- R13: the pulse windows that have run their time. -/
theorem mem_windowExpiries {windows : List (Option Nat)} {limit : Nat} :
    c ∈ windows.zipIdx.flatMap (fun (w, i) => dueAt w limit (.pulseWindowExpiry (224 + i))) ↔
      ∃ i, c = .pulseWindowExpiry (224 + i) ∧ windows[i]? = some (some limit) := by
  simp only [List.mem_flatMap, mem_dueAt, Prod.exists, List.mem_zipIdx_iff_getElem?]
  constructor
  · rintro ⟨w, i, at_i, rfl, rfl⟩
    exact ⟨i, rfl, at_i⟩
  · rintro ⟨i, rfl, at_i⟩
    exact ⟨_, i, at_i, rfl, rfl⟩

/-- The timers of numbered units. -/
theorem mem_unitExpiries {k : Nat} {timer : Fin k → Option Nat} {limit : Fin k → Nat} {expiry : Fin k → Instr} :
    c ∈ (List.finRange k).flatMap (fun n => dueAt (timer n) (limit n) (expiry n)) ↔
      ∃ n, c = expiry n ∧ timer n = some (limit n) := by
  simp only [List.mem_flatMap, List.mem_finRange, true_and, mem_dueAt]

end

/-- Settles O2: the millisecond, the clocks that it advances, and each list of expiries by its timers. -/
theorem emptyQueueLetsTimePass : Obligations.EmptyQueueLetsTimePass := by
  refine ⟨fun s empty => ⟨fun held => ?_, fun awake => ?_⟩, fun s => rfl, fun s c => mem_idleExpiry, fun s c => ?_,
    fun s c => ?_⟩
  · rw [step_of_empty empty, millisecond_held held]
  · obtain ⟨order, k, passes, perm⟩ := millisecond_awake empty awake
    exact ⟨order, k, (step_of_empty empty).trans (congrArg _ passes), perm, rfl⟩
  · simp only [linkExpiries, List.mem_append, mem_dueAt, mem_strayExpiries, mem_rosterExpiries, mem_rollcallExpiry,
      or_assoc]
    rfl
  · simp only [localExpiries, List.mem_append, mem_windowExpiries, mem_unitExpiries, or_assoc]
    exact or_congr_right (or_congr_right (or_congr_right (exists_congr fun n => and_comm)))

end Sys2Proof.Machine

/-! SUPPORT. A station held in reset: its blocks, the commands that leave it held, and the release that reads the straps
(R147, R155, R176, R177, R181; logs 7, 8, 23). -/

namespace Sys2Proof.Machine

/-! ### The blocks of a station held in reset (R176) -/

theorem afterReset_afterReset (f : FieldUnit) : f.afterReset.afterReset = f.afterReset := by
  simp [FieldUnit.afterReset, FieldInput.resetWith, FieldOutput.resetWith]

/-- R176: a reset leaves the station held. -/
theorem resetBlocks_held (s : State) : HeldInReset s.resetBlocks := by
  show { s.resetBlocks with field := s.field.afterReset.afterReset } = s.resetBlocks
  rw [afterReset_afterReset]
  rfl

/-- A command whose own effect leaves state `s`. -/
theorem settles_same {u s : State} (same : u = s) : SettlesTo u.answer s := same ▸ answer_settles u

/-- A place without an output takes no change. -/
theorem updateOutput_absent {s : State} {n : Nat} (absent : s.field.outputs[n]? = none)
    (f : FieldOutput → FieldOutput) : s.updateOutput n f = s := by
  rw [State.updateOutput, List.modify_eq_self (List.getElem?_eq_none_iff.mp absent)]

/-- A function that keeps a list keeps each value of it. -/
theorem getElem?_map_fixed {α : Type} {f : α → α} {l : List α} {n : Nat} {x : α} (same : l.map f = l)
    (at_n : l[n]? = some x) : f x = x := by
  have mapped : (l.map f)[n]? = some (f x) := by rw [List.getElem?_map, at_n, Option.map_some]
  rw [same, at_n] at mapped
  exact (Option.some.inj mapped).symm

namespace HeldInReset

variable {s : State} (held : HeldInReset s)
include held

theorem pinned : s.loader.held = true := (congrArg (·.loader.held) held).symm
theorem lifecycle : s.lifecycle = .start := (congrArg State.lifecycle held).symm
theorem commit : s.commit = CommitUnit.reset := (congrArg State.commit held).symm
theorem image : s.image = ImageBlock.reset := (congrArg State.image held).symm
theorem join : s.join = JoinController.reset := (congrArg State.join held).symm
theorem timers : s.timers = TimerUnit.reset := (congrArg State.timers held).symm
theorem fault : s.fault = FaultUnit.reset := (congrArg State.fault held).symm
theorem field : s.field.afterReset = s.field := congrArg State.field held
theorem quiet : s.Quiet := ⟨(congrArg State.agenda held).symm, (congrArg State.echoes held).symm⟩

/-- R147: an input holds its line and nothing else. -/
theorem input {n : Nat} {i : FieldInput} (at_n : s.field.inputs[n]? = some i) : i = FieldInput.resetWith i.line :=
  (getElem?_map_fixed (congrArg FieldUnit.inputs held.field) at_n).symm

/-- R148, R150, R152, R155: an output holds its readback line and nothing else. -/
theorem output {n : Nat} {o : FieldOutput} (at_n : s.field.outputs[n]? = some o) :
    o = FieldOutput.resetWith o.readback :=
  (getElem?_map_fixed (congrArg FieldUnit.outputs held.field) at_n).symm

/-- R176: every output is OFF. -/
theorem outputs_off : ∀ o ∈ s.field.outputs, o.driven = false := fun o mem => by
  obtain ⟨n, at_n⟩ := List.mem_iff_getElem?.mp mem
  rw [held.output at_n]
  rfl

theorem withField {f : FieldUnit} (reset : f.afterReset = f) : HeldInReset { s with field := f } := by
  show { s.resetBlocks with field := f.afterReset } = { s with field := f }
  rw [reset, show s.resetBlocks = s from held]

/-- R146, R176: the pin of an input takes a level. -/
theorem withInput (n : Nat) (level : Bool) : HeldInReset
    { s with field := { s.field with inputs := s.field.inputs.set n (FieldInput.resetWith level) } } := by
  refine held.withField ?_
  simp only [FieldUnit.afterReset, FieldInput.resetWith, List.map_set]
  congr 2
  · exact congrArg FieldUnit.inputs held.field
  · exact congrArg FieldUnit.outputs held.field

/-- R152, R176: the readback pin of an output takes a level. -/
theorem withOutput (n : Nat) (level : Bool) : HeldInReset
    { s with field := { s.field with outputs := s.field.outputs.set n (FieldOutput.resetWith level) } } := by
  refine held.withField ?_
  simp only [FieldUnit.afterReset, FieldOutput.resetWith, List.map_set]
  congr 2
  · exact congrArg FieldUnit.inputs held.field
  · exact congrArg FieldUnit.outputs held.field

/-! ### The commands that a held station takes (R176; log 23) -/

/-- R146, R147: an input line is only recorded. -/
theorem inputLine_settles (n : Fin 16) (level : Bool) :
    ∃ t, SettlesTo (exec (.inputLineChange n level) s) t ∧ HeldInReset t := by
  cases at_n : s.field.inputs[n.val]? with
  | none => exact ⟨s, settles_same (u := s.inputLine n level) (by rw [State.inputLine, at_n]), held⟩
  | some i =>
    have unwatched : s.lifecycle.watchesLines = false := by rw [held.lifecycle]; rfl
    have recorded := inputLine_unwatched at_n unwatched level
    rw [held.input at_n] at recorded
    exact ⟨_, settles_same (u := s.inputLine n level) recorded, held.withInput n level⟩

/-- R146: no filter run is under way. -/
theorem filterRun_settles (n : Fin 16) : SettlesTo (exec (.filterRunExpiry n) s) s := by
  refine settles_same (u := s.filterExpires n) ?_
  cases at_n : s.field.inputs[n.val]? with
  | none => rw [State.filterExpires, at_n]
  | some i =>
    have still : ¬ HasReached i.run (s.setup.filter n) := by
      rw [held.input at_n]
      exact fun ⟨_, runs, _⟩ => nomatch runs
    rw [filterExpires_eq at_n, runExpiry_early still, putInput_unchanged rfl, withInputAt_same at_n]

/-- R152: a readback line is only recorded. -/
theorem readbackLine_settles (n : Fin 12) (level : Bool) :
    ∃ t, SettlesTo (exec (.readbackLineChange n level) s) t ∧ HeldInReset t := by
  cases at_n : s.field.outputs[n.val]? with
  | none => exact ⟨s, settles_same (updateOutput_absent at_n _), held⟩
  | some o =>
    have start := held.output at_n
    have recorded : (if level = o.readback then o else o.readbackChange level) = FieldOutput.resetWith level := by
      rw [start, readbackChange_recorded (.inl rfl)]
      split
      next same => rw [same]; rfl
      next => rfl
    rw [exec_readbackLineChange at_n, recorded]
    exact ⟨_, answer_settles _, held.withOutput n level⟩

/-- R152: no readback check is under way. -/
theorem settleTimer_settles (n : Fin 12) : SettlesTo (exec (.settleTimerExpiry n) s) s := by
  cases at_n : s.field.outputs[n.val]? with
  | none => exact settles_same (updateOutput_absent at_n _)
  | some o =>
    have off : o.phase ≠ .settling := by rw [held.output at_n]; nofun
    rw [exec_settleTimerExpiry at_n, settleExpiry_stale (.inl off), withOutputAt_same at_n]
    exact answer_settles s

theorem mismatchTimer_settles (n : Fin 12) : SettlesTo (exec (.mismatchTimerExpiry n) s) s := by
  cases at_n : s.field.outputs[n.val]? with
  | none =>
    show SettlesTo (execMismatchTimerExpiry n s) s
    rw [execMismatchTimerExpiry, at_n]
    exact answer_settles s
  | some o =>
    have off : o.phase ≠ .differing := by rw [held.output at_n]; nofun
    rw [exec_mismatchTimerExpiry at_n]
    exact settles_of_stale (mt mismatchExpires_iff.mp fun due => off due.1)

/-- R136: no unit clock runs. -/
theorem unit_settles (n : Fin 16) : SettlesTo (exec (.unitExpiry n) s) s := by
  have at_n : s.timers.timers[n.val]? = some TimerState.initial := by
    rw [held.timers]
    exact List.getElem?_replicate_of_lt n.isLt
  obtain ⟨-, -, unit⟩ := windowAndUnitExpiriesAct s 0 n TimerState.initial
  obtain ⟨-, -, stale⟩ := unit at_n
  exact stale (.inl (by decide))

/-- R13: no pulse window is open. -/
theorem window_settles (p : Point) : SettlesTo (exec (.pulseWindowExpiry p) s) s := by
  have shut : s.image.windows.getD (p - 224) none = none := by
    rw [held.image, ImageBlock.reset, List.getD_eq_getElem?_getD,
      List.getElem?_getD_replicate_default_eq]
  obtain ⟨-, stale, -⟩ := windowAndUnitExpiriesAct s p 0 TimerState.initial
  refine stale (.inr (.inr ?_))
  rw [shut]
  exact fun ⟨_, runs, _⟩ => nomatch runs

/-- R176: a command of the medium or of the link's timers finds nothing in flight and nothing under way. -/
theorem exec_settles {c : Instr} (waits : ∀ straps, c ≠ .resetRelease straps) :
    ∃ t, SettlesTo (exec c s) t ∧ HeldInReset t := by
  have stays (settles : SettlesTo (exec c s) s) : ∃ t, SettlesTo (exec c s) t ∧ HeldInReset t := ⟨s, settles, held⟩
  have life := held.lifecycle
  have silent : s.commit.flight = none := by rw [held.commit]; rfl
  cases carries : c.frame? with
  | some f =>
    rw [exec_frame carries] at stays ⊢
    exact stays (settles_same (if_pos held.pinned))
  | none =>
    cases c with
    | powerOnReset | resetLineAssertion => exact ⟨s.resetBlocks, answer_settles _, resetBlocks_held s⟩
    | resetRelease straps => exact absurd rfl (waits straps)
    | configurationRead | idleReached | frameIncomplete | activity => exact stays (settles_of_acts held.pinned)
    | veto cells => exact stays (settles_same (u := s.vetoSlot cells) (if_pos held.pinned))
    | frameStart =>
      exact stays (settles_same (startFrame_stays (.inl (not_mayStart_offMedium (by rw [life]; rfl)))))
    | arbitrationLost => exact stays (settles_of_stale (by simp [CommitUnit.arbitrates, silent]))
    | abort => exact stays (settles_of_stale (by simp [silent]))
    | listenPeriodExpiry | answerTimerExpiry | partGapExpiry | rejoinHoldoffExpiry | rollcallDue =>
      exact stays (settles_of_stale (not_due (.inl (by simp [life]))))
    | straySetExpiry x => exact stays (settles_of_stale (by rw [held.join]; nofun))
    | silenceLimit y => exact stays (settles_of_stale (by simp [silenceExceeds, held.image, ImageBlock.reset]))
    | entryDeadline y => exact stays (settles_of_stale (by simp [deadlineExceeds, held.image, ImageBlock.reset]))
    | pacingGap => exact stays (settles_of_stale (by rw [held.commit]; nofun))
    | pulseWindowExpiry p => exact stays (held.window_settles p)
    | unitExpiry n => exact stays (held.unit_settles n)
    | inputLineChange n level => exact held.inputLine_settles n level
    | filterRunExpiry n => exact stays (held.filterRun_settles n)
    | readbackLineChange n level => exact held.readbackLine_settles n level
    | settleTimerExpiry n => exact stays (held.settleTimer_settles n)
    | mismatchTimerExpiry n => exact stays (held.mismatchTimer_settles n)
    | _ => exact nomatch carries

end HeldInReset

/-- R3, R63, R64, R78, R95, R133, R134, R147, R155, R160, R164, R176: the two resets of every state. -/
theorem resetCommands (s : State) : exec .powerOnReset s = .next s.resetBlocks ∧
    exec .resetLineAssertion s = .next s.resetBlocks :=
  have whole : s.resetBlocks.answer = .next s.resetBlocks :=
    congrArg Host.Outcome.next (finish_quiet (resetBlocks_held s).quiet)
  ⟨whole, whole⟩

/-- Settles O3: the reset values, the two resets, and the commands that find the station held. -/
theorem resetHoldsEveryBlock : Obligations.ResetHoldsEveryBlock := by
  refine ⟨⟨rfl, rfl, rfl, rfl, fun _ => List.eq_of_mem_replicate, fun e mem => ?_, rfl, rfl, rfl, rfl, rfl, rfl, rfl, rfl,
    fun _ => List.eq_of_mem_replicate, rfl, fun _ => List.eq_of_mem_replicate, fun _ => List.eq_of_mem_replicate,
    fun t mem => ?_, fun c mem => ?_, fun i mem => ?_, fun o mem => ?_, rfl, fun _ => List.eq_of_mem_replicate, rfl, rfl,
    rfl, rfl, rfl, rfl, rfl, rfl, rfl, rfl⟩, fun s => ?_, fun s c held waits => ?_⟩
  · obtain rfl := List.eq_of_mem_replicate mem
    exact ⟨rfl, rfl⟩
  · obtain rfl := List.eq_of_mem_replicate mem
    exact ⟨rfl, rfl, rfl⟩
  · obtain rfl := List.eq_of_mem_replicate mem
    exact ⟨rfl, rfl⟩
  · obtain rfl := List.eq_of_mem_replicate mem
    exact ⟨rfl, rfl⟩
  · obtain rfl := List.eq_of_mem_replicate mem
    exact ⟨rfl, rfl, rfl, rfl⟩
  · obtain ⟨power, line⟩ := resetCommands s
    exact ⟨power, line, resetBlocks_held s⟩
  · obtain ⟨t, ⟨u, answers, -, settled⟩, heldT⟩ := held.exec_settles waits
    obtain rfl := settled heldT.quiet
    exact ⟨u, answers, heldT, heldT.lifecycle, by rw [heldT.commit]; rfl, heldT.outputs_off, by rw [heldT.fault]; rfl⟩

/-! ### The release (R177, R181) -/

/-- R156, R157, R181: a report that leads to CONFIG-FAULT, once the hand-offs have been taken. -/
theorem reportedConfigFault_finish (u : State) (kind : FaultKind) (subject : Option Subject) :
    let t := (u.report kind subject).toConfigFault.finish
    t.lifecycle = .configFault ∧ t.loader.config = none ∧ t.loader.phase = .none ∧ t.fault.line = true ∧
      (u.fault.record = none → t.fault.record = some ⟨kind, subject, u.timeBase, u.lifecycle⟩) ∧
      ∀ r, u.fault.record = some r → t.fault.record = some r := by
  have taken := finish_untouched (u.report kind subject).toConfigFault
  have kept := finish_keepsRecord (u.report kind subject).toConfigFault
  have record : (u.report kind subject).toConfigFault.fault.record = match u.fault.record with
      | some r => some r
      | none => some ⟨kind, subject, u.timeBase, u.lifecycle⟩ :=
    congrArg FaultUnit.record (report_fault u kind subject)
  have absent : u.fault.record = none → (u.report kind subject).toConfigFault.finish.fault.record =
      some ⟨kind, subject, u.timeBase, u.lifecycle⟩ := fun none => kept _ (by rw [record, none])
  have present : ∀ r, u.fault.record = some r →
      (u.report kind subject).toConfigFault.finish.fault.record = some r := fun r some => kept _ (by rw [record, some])
  refine ⟨taken.lifecycle, congrArg Loader.config taken.loader, congrArg Loader.phase taken.loader, ?_, absent,
    present⟩
  cases before : u.fault.record with
  | none => rw [FaultUnit.line, absent before]; rfl
  | some r => rw [FaultUnit.line, present r before]; rfl

/-- R177: the release of a held station reads the straps that it carries. -/
theorem exec_resetRelease {s : State} (held : s.loader.held = true) (straps : BitVec 5) :
    exec (.resetRelease straps) s =
      (State.readStraps { s with loader := { s.loader with straps := straps } }).answer :=
  congrArg State.answer (if_pos held)

/-- Settles O4: a station not held, a strapped number from 1 to 30, and the two that are none. -/
theorem releaseReadsStraps : Obligations.ReleaseReadsStraps := by
  refine fun s straps => ⟨fun awake => settles_of_stale (by simp [awake]), fun held range => ?_, fun held outside => ?_⟩
  · have number := readStraps_number (s := { s with loader := { s.loader with straps := straps } })
      (isStation_iff.mpr range)
    rw [exec_resetRelease held, number]
    exact answer_settles _
  · have noStation : isStation straps.toNat = false := by
      rcases outside with zero | top
      · rw [zero]; rfl
      · rw [top]; rfl
    rw [exec_resetRelease held, readStraps_refused noStation]
    exact ⟨_, rfl, reportedConfigFault_finish _ .stationStrap none⟩

end Sys2Proof.Machine

/-! SUPPORT. What a configuration that loads holds: the ranges of its fields, entry by entry, its own contribution points,
and its markers and gates (R118, R122, R178 to R180). -/

namespace Sys2Proof.Machine

/-! ### A block that loads (R178, R180) -/

/-- R178, R180: what a block that loads has passed. -/
structure BlockPasses (b : Block) : Prop where
  count  : b.at 163 ≤ 64
  terms  : ∀ t, t < b.at 163 → TermFits b t
  checks : ∀ code entry, ¬ BlockFails b (setupOf b (termPlaces b)) code entry

section
variable {b : Block} {c : StationSetup}

/-- R180: a check that fails has a first code and a lowest entry. -/
theorem blockFails_first {code entry : Nat} (failed : BlockFails b c code entry) : ∃ k e, BlockFails b c k e ∧
    (∀ d, d < e → ¬ BlockFails b c k d) ∧ ∀ j d, j < k → ¬ BlockFails b c j d := by
  classical
  have codes : ∃ k e, BlockFails b c k e := ⟨code, entry, failed⟩
  have entries := Nat.find_spec codes
  exact ⟨Nat.find codes, Nat.find entries, Nat.find_spec entries, fun d lower => Nat.find_min entries lower,
    fun j d lower fails => Nat.find_min codes lower ⟨d, fails⟩⟩

/-- R178 to R180: a block that loads has failed no check, and its terms stand where the walk finds them. -/
theorem loadBlock_passes (loads : loadBlock b = .ok c) : BlockPasses b ∧ c = setupOf b (termPlaces b) := by
  have never : ∀ {failure}, loadBlock b ≠ .error failure := fun fails => nomatch loads.symm.trans fails
  obtain ⟨format, sum, walked⟩ := failingBlocksReportTheirFirstCheck b
  have tag : b.at 0 = 1 := by_contra fun wrong => never (format wrong)
  obtain ⟨many, cut, ends, content⟩ := walked tag (by_contra fun wrong => never (sum tag wrong))
  have count : b.at 163 ≤ 64 := Nat.le_of_not_lt fun more => never (many more)
  have terms : ∀ t, t < b.at 163 → TermFits b t := fun t => by
    induction t using Nat.strong_induction_on with
    | _ t before =>
      exact fun low => by_contra fun stops => never (cut t count low (fun u lt => before u lt (lt.trans low)) stops)
  obtain ⟨fails, passes⟩ := content count terms (by_contra fun early => never (ends count terms early))
  have checks : ∀ code entry, ¬ BlockFails b (setupOf b (termPlaces b)) code entry := fun code entry failed => by
    obtain ⟨k, e, first, lowest, earlier⟩ := blockFails_first failed
    exact never (fails k e first lowest earlier)
  exact ⟨⟨count, terms, checks⟩, Except.ok.inj (loads.symm.trans (passes checks))⟩

end

/-! ### Literals (R117, R179) -/

section
variable {b : Block} {place : Nat} {required : Bool}

/-- R179: a literal field in range names a source that there is. -/
theorem literalAt_inRange {l : Literal} (fits : LiteralFits b place required) (reads : literalAt b place = some l) :
    sourceInRange l.source := by
  obtain ⟨-, fits⟩ := fits
  obtain ⟨src, named, rfl⟩ := Option.map_eq_some_iff.mp reads
  rcases fits with ⟨kind, -⟩ | ⟨kind | kind, low⟩ | ⟨kind, low⟩ | kind | ⟨kind, low⟩ | ⟨kind, low⟩ | ⟨kind | kind, -⟩ <;>
    rw [kind] at named <;> cases named
  exacts [low, low, low, b.at_lt _, low, low, trivial, trivial]

/-- R179: a literal field in range that must name a source does. -/
theorem literalAt_required (fits : LiteralFits b place true) : ∃ l, literalAt b place = some l := by
  obtain ⟨-, fits⟩ := fits
  obtain ⟨src, named⟩ : ∃ src, sourceOf? (b.at place % 16) (b.at (place + 1)) = some src := by
    rcases fits with ⟨-, ⟨⟩⟩ | ⟨kind | kind, -⟩ | ⟨kind, -⟩ | kind | ⟨kind, -⟩ | ⟨kind, -⟩ | ⟨kind | kind, -⟩ <;>
      rw [kind] <;> exact ⟨_, rfl⟩
  exact ⟨_, Option.map_eq_some_iff.mpr ⟨src, named, rfl⟩⟩

end

/-! ### Own contribution points (R65, R180) -/

theorem mem_foldl_insertStation {named : List Station} {p : Station} : ∀ {l : List Station},
    p ∈ named.foldl (fun l x => insertStation x l) l ↔ p ∈ named ∨ p ∈ l := by
  induction named with
  | nil => simp
  | cons x named ih =>
    intro l
    rw [List.foldl_cons, ih, mem_insertStation, List.mem_cons]
    tauto

/-- R65, R180: the rows of the contribution table are the points that the block names, each once. -/
theorem ownPoints_length (c : StationSetup) :
    (ownPoints c).length = (contributionsOf c c.terms.length).dedup.length := by
  have points : ownPoints c = (c.terms.filterMap Term.contributed? ++ c.faultPoint.toList).foldl
      (fun l p => insertStation p l) [] := rfl
  rw [points, contributionsOf_eq, List.take_length]
  refine length_eq_dedup (foldl_insertStation_ascending _ List.Pairwise.nil) fun p => mem_foldl_insertStation.trans ?_
  exact (or_iff_left List.not_mem_nil).trans List.perm_append_comm.mem_iff

/-! ### The fields of a block that passes (R179) -/

namespace BlockPasses

variable {b : Block} (passes : BlockPasses b)
include passes

theorem entry {e : Nat} (low : e < 64 + b.at 163) : EntryFits b e :=
  by_contra fun failed => passes.checks 5 e ⟨low, failed⟩

theorem links : LinksInRange (setupOf b (termPlaces b)) := linksInRange (passes.checks 5) (passes.checks 6)

theorem header : (10 ≤ b.at 4 ∧ b.at 4 ≤ 250) ∧ b.at 5 ≤ 15 := by
  obtain ⟨header, -⟩ := passes.entry (e := 0) (by omega)
  obtain ⟨-, least, most, pacing⟩ := header rfl
  exact ⟨⟨least, most⟩, pacing⟩

theorem filter {n : Nat} (low : n < 16) :
    b.at (6 + n) = 0 ∨ b.at (6 + n) = 2 ∨ b.at (6 + n) = 5 ∨ b.at (6 + n) = 12 := by
  obtain ⟨-, filters, -⟩ := passes.entry (e := 1 + n) (by omega)
  exact filters n low rfl

theorem output {n : Nat} (low : n < 12) : 1 ≤ b.at (22 + 2 * n) ∧ b.at (22 + 2 * n) ≤ 100 := by
  obtain ⟨-, -, outputs, -⟩ := passes.entry (e := 17 + n) (by omega)
  obtain ⟨least, most, -⟩ := outputs n low rfl
  exact ⟨least, most⟩

theorem gate {n : Nat} (low : n < 8) : LiteralFits b (46 + 4 * n) false ∧ b.at (48 + 4 * n) ≤ 8 := by
  obtain ⟨-, -, -, gates, -⟩ := passes.entry (e := 29 + n) (by omega)
  obtain ⟨enable, parent, -⟩ := gates n low rfl
  exact ⟨enable, parent⟩

theorem timer {n : Nat} (low : n < 16) :
    1 ≤ b.word (79 + 3 * n) ∧ b.word (79 + 3 * n) ≤ 30000 ∧ b.at (78 + 3 * n) % 16 ≤ 8 := by
  obtain ⟨-, -, -, -, timers, -⟩ := passes.entry (e := 37 + n) (by omega)
  obtain ⟨-, -, gate, least, most⟩ := timers n low rfl
  exact ⟨least, most, gate⟩

theorem counter {n : Nat} (low : n < 8) :
    1 ≤ b.word (126 + 4 * n) ∧ b.at (128 + 4 * n) ≤ 8 ∧ (b.at (129 + 4 * n) = 0 ∨ 224 ≤ b.at (129 + 4 * n)) := by
  obtain ⟨-, -, -, -, -, counters, -⟩ := passes.entry (e := 53 + n) (by omega)
  exact counters n low rfl

theorem capture : LiteralFits b 158 false ∧ b.at 161 ≤ 47 := by
  obtain ⟨-, -, -, -, -, -, capture, -⟩ := passes.entry (e := 61) (by omega)
  obtain ⟨trigger, -, post⟩ := capture rfl
  exact ⟨trigger, post⟩

theorem term {n : Nat} (low : n < b.at 163) : b.at (termPlace b n + 2) / 16 ≤ 8 ∧
    ∀ i, i < b.at (termPlace b n + 2) % 8 → LiteralFits b (termPlace b n + 3 + 2 * i) true := by
  obtain ⟨-, -, -, -, -, -, -, terms⟩ := passes.entry (e := 64 + n) (by omega)
  obtain ⟨-, gate, -, literals⟩ := terms n low rfl
  exact ⟨gate, literals⟩

/-- R117, R178: a term has the literals that its head counts. -/
theorem literals_length {n : Nat} (low : n < b.at 163) :
    (termAt b (termPlace b n)).literals.length = b.at (termPlace b n + 2) % 8 := by
  obtain ⟨-, fits⟩ := passes.term low
  have every : ∀ i ∈ List.range (b.at (termPlace b n + 2) % 8),
      (literalAt b (termPlace b n + 3 + 2 * i)).isSome = true := fun i mem => by
    obtain ⟨l, reads⟩ := literalAt_required (fits i (List.mem_range.mp mem))
    rw [reads]
    rfl
  rw [termAt, List.length_filterMap_eq_countP, List.countP_eq_length.mpr every, List.length_range]

/-- R118, R180: every target is allowed. -/
theorem target_allowed {t : Term} (mem : t ∈ (setupOf b (termPlaces b)).terms) :
    targetAllowed (setupOf b (termPlaces b)) t.target = true := by
  obtain ⟨n, at_n⟩ := List.mem_iff_getElem?.mp mem
  refine (targetAllowed_iff _ _).mpr (by_contra fun refused => ?_)
  exact passes.checks 6 (64 + n) ⟨n, t, rfl, at_n, refused⟩

/-- R180: at most twelve own contribution points. -/
theorem ownPoints_few : (ownPoints (setupOf b (termPlaces b))).length ≤ 12 := by
  rw [ownPoints_length]
  cases last : (setupOf b (termPlaces b)).terms.length with
  | zero => cases point : (setupOf b (termPlaces b)).faultPoint <;> simp [contributionsOf, point]
  | succ n =>
    by_contra many
    exact passes.checks 7 (64 + n) ⟨n, by omega, rfl, Nat.lt_of_not_le many⟩

/-- R117, R118, R178, R180: the terms of the configuration. -/
theorem terms_inRange : (setupOf b (termPlaces b)).terms.length ≤ 64 ∧
    ∀ t ∈ (setupOf b (termPlaces b)).terms, 1 ≤ t.literals.length ∧ t.literals.length ≤ 4 ∧ t.gate ≤ 8 ∧
      targetAllowed (setupOf b (termPlaces b)) t.target = true := by
  refine ⟨?_, fun t mem => ?_⟩
  · rw [setupOf, List.length_map, termPlaces_length]
    exact passes.count
  · have allowed := passes.target_allowed mem
    obtain ⟨n, low, rfl⟩ := setupOf_term mem
    obtain ⟨-, least, most⟩ := passes.terms n low
    rw [passes.literals_length low]
    exact ⟨least, most, (passes.term low).1, allowed⟩

/-- R179: the timers of the configuration. -/
theorem timers_inRange : ∀ t ∈ (setupOf b (termPlaces b)).timers,
    (t.base = 1 ∨ t.base = 10 ∨ t.base = 100) ∧ 1 ≤ t.preset ∧ t.preset ≤ 30000 ∧ t.gate ≤ 8 := by
  refine List.forall_mem_map.mpr fun n mem => ⟨?_, passes.timer (List.mem_range.mp mem)⟩
  dsimp only [baseOf]
  split_ifs <;> simp

/-- R179: the counters of the configuration. -/
theorem counters_inRange : ∀ t ∈ (setupOf b (termPlaces b)).counters,
    1 ≤ t.preset ∧ t.preset ≤ 65535 ∧ t.gate ≤ 8 ∧ ∀ p, t.source = some p → 224 ≤ p ∧ p ≤ 255 := by
  refine List.forall_mem_map.mpr fun n mem => ?_
  obtain ⟨least, gate, source⟩ := passes.counter (List.mem_range.mp mem)
  have high := b.at_lt (126 + 4 * n)
  have low := b.at_lt (126 + 4 * n + 1)
  have point := b.at_lt (129 + 4 * n)
  refine ⟨least, show 256 * _ + _ ≤ 65535 by omega, gate, fun p named => ?_⟩
  dsimp only at named
  split_ifs at named with none
  cases named
  exact ⟨source.resolve_left none, Nat.le_of_lt_succ point⟩

/-- R179: every source that the configuration names is one that there is. -/
theorem sources_inRange : (∀ t ∈ (setupOf b (termPlaces b)).terms, ∀ l ∈ t.literals, sourceInRange l.source) ∧
    (∀ g ∈ (setupOf b (termPlaces b)).gates, ∀ l, g.enable = some l → sourceInRange l.source) ∧
    ∀ l, (setupOf b (termPlaces b)).capture.trigger = some l → sourceInRange l.source := by
  refine ⟨fun t mem l literal => ?_, List.forall_mem_map.mpr fun n mem l enable => ?_, fun l trigger => ?_⟩
  · obtain ⟨n, low, rfl⟩ := setupOf_term mem
    obtain ⟨i, inside, reads⟩ := List.mem_filterMap.mp literal
    exact literalAt_inRange ((passes.term low).2 i (List.mem_range.mp inside)) reads
  · exact literalAt_inRange (passes.gate (List.mem_range.mp mem)).1 enable
  · exact literalAt_inRange passes.capture.1 trigger

/-- R122, R180: the chain of every gate reaches G0 in three steps. -/
theorem chains_short (n : Nat) (least : 1 ≤ n) (most : n ≤ 8) : (parentOf (setupOf b (termPlaces b)))^[3] n = 0 := by
  obtain ⟨m, rfl⟩ := Nat.exists_eq_add_of_le' least
  exact by_contra fun far => passes.checks 9 (29 + m) ⟨m, by omega, rfl, far⟩

/-- R122, R180: no marker depends on itself. -/
theorem markers_acyclic (m : Nat) : ¬ Relation.TransGen (dependsOn (setupOf b (termPlaces b))) m m := fun cycle => by
  obtain ⟨_, depends, -⟩ := Relation.TransGen.head'_iff.mp cycle
  exact passes.checks 8 m ⟨(dependsOn_low passes.links depends).1, cycle⟩

/-- R179, R180: a block that passes every check gives a configuration in range. -/
theorem configInRange : ConfigInRange (setupOf b (termPlaces b)) where
  period := passes.header.1
  pacing := passes.header.2
  filters := ⟨by simp [setupOf], List.forall_mem_map.mpr fun n mem => passes.filter (List.mem_range.mp mem)⟩
  outputs := ⟨by simp [setupOf], List.forall_mem_map.mpr fun n mem => passes.output (List.mem_range.mp mem)⟩
  gates := ⟨by simp [setupOf], List.forall_mem_map.mpr fun n mem => (passes.gate (List.mem_range.mp mem)).2⟩
  chains := passes.chains_short
  timers := ⟨by simp [setupOf], passes.timers_inRange⟩
  counters := ⟨by simp [setupOf], passes.counters_inRange⟩
  capture := passes.capture.2
  faultPoint p named := by
    simp only [setupOf] at named
    split_ifs at named
    cases named
    exact Nat.le_of_lt_succ (Nat.mod_lt _ (by decide))
  terms := passes.terms_inRange
  ownPoints := passes.ownPoints_few
  sources := passes.sources_inRange
  markers := passes.markers_acyclic
  references :=
    ⟨fun n low cyclic => passes.checks 10 (37 + n) (.inl ⟨n, low, rfl, cyclic⟩),
      fun n low cyclic => passes.checks 10 (53 + n) (.inr ⟨n, low, rfl, cyclic⟩)⟩

end BlockPasses

/-- Settles O6: a block that loads has passed every check, and its configuration is in range field by field. -/
theorem loadedConfigurationIsInRange : Obligations.LoadedConfigurationIsInRange := by
  intro b c loads
  obtain ⟨passes, rfl⟩ := loadBlock_passes loads
  exact passes.configInRange

end Sys2Proof.Machine
